-- ==== Sys2Proof/Word.lean ====
section
/-! DEFINITION. The types of spec/00_scope.md rule R11, and the bit ranges of rule R12. -/

namespace Sys2Proof

/-- A frame: 48 bits, bit 0 the least significant (R9, R11). -/
abbrev Frame := BitVec 48

/-- A command word: 16 bits (R68). -/
abbrev CmdWord := BitVec 16

/-- One byte of a frame (R14). -/
abbrev Byte := BitVec 8

/-- The five modes: of an intent, remembered in LASTMODE, or effective (R11). -/
inductive Mode where
  | off
  | cool
  | auto
  | dehumidify
  | clean
deriving DecidableEq, Repr

/-- A bit field of a frame: its shift and its width (R11). -/
structure Field where
  shift : Nat
  width : Nat
deriving DecidableEq, Repr

/-- One (mark, space) pair of a pulse sequence (R11). A duration in microseconds is a plain number, here and everywhere
(`Dur` of R11, R188; log entry 10). -/
structure Pair where
  mark : Nat
  space : Nat
deriving DecidableEq, Repr

end Sys2Proof
end

