-- ==== Sys2Proof/Syntax.lean ====
section
/-! DEFINITION. The commands: one constructor for each row of spec/opcode_table.json (spec/30_encoding.md rule R73).
The operand frame of DEC and TXP and the operand list of RXP travel on the ports `fin` and `pin`, not in the word (R77),
so those three constructors have no argument. -/

namespace Sys2Proof

inductive Instr where
  /-- ENC.OFF t (R96); `t` is the target temperature in whole degrees C -/
  | encOff (t : Int)
  /-- ENC.COOL t (R97) -/
  | encCool (t : Int)
  /-- ENC.AUTO t (R98) -/
  | encAuto (t : Int)
  /-- ENC.DEHUM t (R99) -/
  | encDehum (t : Int)
  /-- ENC.CLEAN t (R100) -/
  | encClean (t : Int)
  /-- DEC (R121) -/
  | dec
  /-- TXP (R131) -/
  | txp
  /-- RXP (R141) -/
  | rxp
deriving DecidableEq, Repr

end Sys2Proof
end

