-- ==== Sys2Proof/WellFormed.lean ====
section
/-! DEFINITION. Which commands can be written: the temperature operand is of type Temp, -128..127
(spec/00_scope.md rule R11, spec/30_encoding.md rule R71). -/

namespace Sys2Proof

/-- `t` is of type Temp (R11). -/
def Temp.ok (t : Int) : Bool :=
  decide (-128 ≤ t) && decide (t ≤ 127)

/-- The command's operand is one the command word can hold. -/
def Instr.wellFormed : Instr → Bool
  | .encOff t => Temp.ok t
  | .encCool t => Temp.ok t
  | .encAuto t => Temp.ok t
  | .encDehum t => Temp.ok t
  | .encClean t => Temp.ok t
  | .dec => true
  | .txp => true
  | .rxp => true

end Sys2Proof
end

