-- ==== Sys2Proof/Decode.lean ====
section
/-! DEFINITION. The command word (spec/30_encoding.md rules R68, R70, R71, R73, R74): decoder, encoder and the rows of
the opcode table. The numbering is the spec's own (D3, log entry 7). -/

namespace Sys2Proof

/-- Why a command word is reserved: the four classes of rule R74. -/
inductive Reserved where
  /-- `op` in 4..15 -/
  | op
  /-- bit 11 set in an ENC word -/
  | bit11
  /-- `op = 0` with `mode` in 5..7 -/
  | mode
  /-- `op` in 1..3 with any of bits 11..0 set -/
  | operandBits
deriving DecidableEq, Repr

/-- Bits 15..12 (R68). -/
def opBits (w : CmdWord) : Nat := (w.extractLsb' 12 4).toNat

/-- Bits 10..8 (R68). -/
def modeBits (w : CmdWord) : Nat := (w.extractLsb' 8 3).toNat

/-- The temperature operand `sext(cmd[7:0])` (R71). -/
def tempOperand (w : CmdWord) : Int := (w.extractLsb' 0 8).toInt

/-- DEC, TXP and RXP use bits 15..12 alone; bits 11..0 must be 0 (R68). -/
def bareCommand (w : CmdWord) (i : Instr) : Except Reserved Instr :=
  if w.extractLsb' 0 12 = 0#12 then .ok i else .error .operandBits

/-- An ENC word: bit 11 must be 0 and the mode one of the five (R68, R70, R74). -/
def encCommand (w : CmdWord) : Except Reserved Instr :=
  if w.getLsbD 11 then .error .bit11 else
    match modeBits w with
    | 0 => .ok (.encOff (tempOperand w))
    | 1 => .ok (.encCool (tempOperand w))
    | 2 => .ok (.encAuto (tempOperand w))
    | 3 => .ok (.encDehum (tempOperand w))
    | 4 => .ok (.encClean (tempOperand w))
    | _ => .error .mode

/-- The command decoder, total on all 65536 words (R73, R74, R166). -/
def decode (w : CmdWord) : Except Reserved Instr :=
  match opBits w with
  | 0 => encCommand w
  | 1 => bareCommand w .dec
  | 2 => bareCommand w .txp
  | 3 => bareCommand w .rxp
  | _ => .error .op

/-- The code of a mode in the command word (R70; the coding of LASTMODE too, R24). -/
def Mode.code : Mode → BitVec 3
  | .off => 0#3
  | .cool => 1#3
  | .auto => 2#3
  | .dehumidify => 3#3
  | .clean => 4#3

/-- `(code(m) << 8) | (t mod 256)` (R77). -/
def encWord (m : Mode) (t : Int) : CmdWord :=
  0#4 ++ 0#1 ++ m.code ++ BitVec.ofInt 8 t

/-- The command word of a command (R77). -/
def encode : Instr → CmdWord
  | .encOff t => encWord .off t
  | .encCool t => encWord .cool t
  | .encAuto t => encWord .auto t
  | .encDehum t => encWord .dehumidify t
  | .encClean t => encWord .clean t
  | .dec => 0x1000#16
  | .txp => 0x2000#16
  | .rxp => 0x3000#16

/-- The `mask` column of the opcode table (R73). -/
def tableMask : Instr → CmdWord
  | .encOff _ => 0xFF00#16
  | .encCool _ => 0xFF00#16
  | .encAuto _ => 0xFF00#16
  | .encDehum _ => 0xFF00#16
  | .encClean _ => 0xFF00#16
  | .dec => 0xFFFF#16
  | .txp => 0xFFFF#16
  | .rxp => 0xFFFF#16

/-- The `match` column of the opcode table (R73). -/
def tableMatch : Instr → CmdWord
  | .encOff _ => 0x0000#16
  | .encCool _ => 0x0100#16
  | .encAuto _ => 0x0200#16
  | .encDehum _ => 0x0300#16
  | .encClean _ => 0x0400#16
  | .dec => 0x1000#16
  | .txp => 0x2000#16
  | .rxp => 0x3000#16

/-- The command read from a row's word: bit 0 of `w` is bit 0 of the command word, which travels whole on the port
`cmd` (R67), so no byte order enters. A number that has bits above the 16 of a command word is no word. -/
def decodeTableWord (nbits w : Nat) : Option Instr :=
  if w % 2 ^ nbits < 2 ^ 16 then
    match decode (BitVec.ofNat 16 (w % 2 ^ nbits)) with
    | .ok i => some i
    | .error _ => none
  else none

end Sys2Proof
end

