-- ==== Sys2Proof/Machine/FrameBits.lean ====
section
/-! DEFINITION. The frame primitives of spec/00_scope.md rules R12 to R15, and the constants that rule R6 fixes. -/

namespace Sys2Proof.Machine

/-- The checksum field, bits 7..0 (R6 `S_CKS`, `W_CKS`; R18). -/
def cks : Field := ⟨0, 8⟩

/-- Width of the power field (R6 `W_POWER`). -/
def wPower : Nat := 1

/-- Width of the auto-fan field (R6 `W_AUTOFAN`). -/
def wAutofan : Nat := 1

/-- Width of the fan-speed field (R6 `W_FAN`). -/
def wFan : Nat := 5

/-- Lower clamp and offset base, degrees C (R6 `TEMP_MIN`). -/
def tempMin : Int := 17

/-- Upper clamp, degrees C (R6 `TEMP_MAX`). -/
def tempMax : Int := 30

/-- Bit slots in a pulse sequence (R6 `N_SLOTS`). -/
def nSlots : Nat := 48

/-- Carrier frequency handed to the sink, Hz (R6 `F_CARRIER`, R132). -/
def fCarrier : Nat := 38000

/-- Replay count handed to the sink (R6 `N_REPEAT`, R132). -/
def nRepeat : Nat := 3

/-- Inter-repeat gap handed to the sink, microseconds (R6 `T_GAP`, R132). -/
def tGap : Nat := 130000

/-- `GetField(f, (S, W)) = (f >> S) mod 2^W` (R12). -/
def getField (f : Frame) (F : Field) : Nat :=
  (f.toNat >>> F.shift) % 2 ^ F.width

/-- `SetField(f, (S, W), v)`: the low `W` bits of `v` at shift `S`, a value that does not fit truncated (R13). -/
def setField (f : Frame) (F : Field) (v : Nat) : Frame :=
  BitVec.ofNat 48
    ((f.toNat - getField f F * 2 ^ F.shift) + (v % 2 ^ F.width) * 2 ^ F.shift)

/-- `Byte(f, k) = f[8k+7 : 8k]` (R14). -/
def byte (f : Frame) (k : Nat) : Byte :=
  f.extractLsb' (8 * k) 8

/-- `Checksum(f)`: the sum of bytes 1..5, truncated to 8 bits (R15). -/
def checksum (f : Frame) : Nat :=
  ((byte f 1).toNat + (byte f 2).toNat + (byte f 3).toNat + (byte f 4).toNat
    + (byte f 5).toNat) % 256

end Sys2Proof.Machine
end

