-- ==== Sys2Proof/Machine/Tolerance.lean ====
section
/-! DEFINITION. The one shared tolerance test, spec/00_scope.md rule R17. -/

namespace Sys2Proof.Machine

/-- `Match(a, e)` for a window function `tol`: `e - min(e, tol e) <= a` and `a <= e + tol e`, both bounds
inclusive (R17; the bounds are the spec's decision D13, log entry 9). -/
def withinTolerance (tol : Nat → Nat) (a e : Nat) : Bool :=
  decide (e - min e (tol e) ≤ a) && decide (a ≤ e + tol e)

end Sys2Proof.Machine
end

