-- ==== Sys2Proof/Config.lean ====
section
/-! DEFINITION. The configuration record CFG (spec/00_scope.md rules R6, R7, R18): fixed when the block is built,
never state (R28, R30). The block's own configuration is `Config.block`, an opaque constant with no body (log entry 1):
nothing can evaluate it, so what is proved of the machine holds for every well-formed configuration. -/

namespace Sys2Proof

open Sys2Proof.Machine

/-- CFG: the parameters the spec names and gives no value (R6, second table). -/
structure Cfg where
  /-- `S_POWER` -/
  sPower : Nat
  /-- `S_MODE` -/
  sMode : Nat
  /-- `W_MODE` -/
  wMode : Nat
  /-- `S_AUTOFAN` -/
  sAutofan : Nat
  /-- `S_FAN` -/
  sFan : Nat
  /-- `S_TEMP` -/
  sTemp : Nat
  /-- `W_TEMP` -/
  wTemp : Nat
  /-- `S_COUNT` -/
  sCount : Nat
  /-- `W_COUNT` -/
  wCount : Nat
  /-- `MC_COOL` -/
  mcCool : Nat
  /-- `MC_AUTO` -/
  mcAuto : Nat
  /-- `MC_DEHUM` -/
  mcDehum : Nat
  /-- `MC_CLEAN` -/
  mcClean : Nat
  /-- `AF_COOL` -/
  afCool : Nat
  /-- `AF_DEHUM` -/
  afDehum : Nat
  /-- `AF_CLEAN` -/
  afClean : Nat
  /-- `FAN_DEFAULT` -/
  fanDefault : Nat
  /-- `FAN_MAX` -/
  fanMax : Nat
  /-- `LVL_AUTO` -/
  lvlAuto : Nat
  /-- `LVL_DEHUM` -/
  lvlDehum : Nat
  /-- `LVL_CLEAN` -/
  lvlClean : Nat
  /-- `FRAME_RESET` -/
  frameReset : Frame
  /-- `T_HDR_MARK` -/
  tHdrMark : Nat
  /-- `T_HDR_SPACE` -/
  tHdrSpace : Nat
  /-- `T_BIT_MARK` -/
  tBitMark : Nat
  /-- `T_ONE_SPACE` -/
  tOneSpace : Nat
  /-- `T_ZERO_SPACE` -/
  tZeroSpace : Nat
  /-- `T_FTR_MARK` -/
  tFtrMark : Nat
  /-- `T_FTR_SPACE` -/
  tFtrSpace : Nat
  /-- `TOL`: the window for an expected duration -/
  tol : Nat → Nat
  /-- `SINK_ADDS_GAP`: an assumption about the sink, used by rule R134 alone -/
  sinkAddsGap : Bool

/-- `POWER = (S_POWER, 1)` (R18). -/
def Cfg.power (c : Cfg) : Field := ⟨c.sPower, wPower⟩

/-- `MODE = (S_MODE, W_MODE)` (R18). -/
def Cfg.mode (c : Cfg) : Field := ⟨c.sMode, c.wMode⟩

/-- `AUTOFAN = (S_AUTOFAN, 1)` (R18). -/
def Cfg.autofan (c : Cfg) : Field := ⟨c.sAutofan, wAutofan⟩

/-- `FAN = (S_FAN, 5)` (R18). -/
def Cfg.fan (c : Cfg) : Field := ⟨c.sFan, wFan⟩

/-- `TEMP = (S_TEMP, W_TEMP)` (R18). -/
def Cfg.temp (c : Cfg) : Field := ⟨c.sTemp, c.wTemp⟩

/-- `COUNT = (S_COUNT, W_COUNT)` (R18). -/
def Cfg.count (c : Cfg) : Field := ⟨c.sCount, c.wCount⟩

/-- The six named fields that WF1 and WF2 speak of (R7). -/
def Cfg.namedFields (c : Cfg) : List Field :=
  [c.power, c.mode, c.autofan, c.fan, c.temp, c.count]

/-- `Match(a, e)` under this configuration's `TOL` (R17). -/
def Cfg.accepts (c : Cfg) (a e : Nat) : Bool :=
  withinTolerance c.tol a e

theorem Cfg.accepts_iff (c : Cfg) (a e : Nat) :
    c.accepts a e = true ↔ e - min e (c.tol e) ≤ a ∧ a ≤ e + c.tol e := by
  simp [Cfg.accepts, withinTolerance]

/-- The bit ranges of two fields have no bit in common (WF2 of R7). -/
abbrev Field.Disjoint (F G : Field) : Prop :=
  F.shift + F.width ≤ G.shift ∨ G.shift + G.width ≤ F.shift

/-- Bit `i` lies in the field. -/
abbrev Field.Covers (F : Field) (i : Nat) : Prop :=
  F.shift ≤ i ∧ i < F.shift + F.width

/-- `WF(CFG)` (R7). WF5 holds by the type of `frameReset`. -/
structure Cfg.WF (c : Cfg) : Prop where
  wf1 : ∀ F ∈ c.namedFields, 8 ≤ F.shift ∧ F.shift + F.width ≤ 48
  wf2 : c.namedFields.Pairwise Field.Disjoint
  wf3 : (c.wCount = 2 ∨ c.wCount = 3 ∨ c.wCount = 4) ∧ 1 ≤ c.wMode ∧ 1 ≤ c.wTemp
  wf4codes : c.mcCool < 2 ^ c.wMode ∧ c.mcAuto < 2 ^ c.wMode ∧ c.mcDehum < 2 ^ c.wMode
    ∧ c.mcClean < 2 ^ c.wMode
  wf4fan : c.fanDefault < 32 ∧ c.fanMax < 32
  wf4autofan : c.afCool < 2 ∧ c.afDehum < 2 ∧ c.afClean < 2
  wf4levels : c.lvlAuto < 2 ^ c.wTemp ∧ c.lvlDehum < 2 ^ c.wTemp ∧ c.lvlClean < 2 ^ c.wTemp
  wf6 : 1 ≤ c.tHdrMark ∧ 1 ≤ c.tHdrSpace ∧ 1 ≤ c.tBitMark ∧ 1 ≤ c.tOneSpace ∧ 1 ≤ c.tZeroSpace
    ∧ 1 ≤ c.tFtrMark ∧ 1 ≤ c.tFtrSpace
  wf7 : ∀ a : Nat, ¬(c.accepts a c.tOneSpace = true ∧ c.accepts a c.tZeroSpace = true)

/-- Bit `i` (8..47) belongs to none of the named fields (R18 unnamed bits, R63). -/
abbrev Cfg.Unnamed (c : Cfg) (i : Nat) : Prop :=
  8 ≤ i ∧ i < 48 ∧ ∀ F ∈ c.namedFields, ¬F.Covers i

/-- The synthetic configuration REF of spec/95_test_vectors.md section 1 (R8): for the tests, and to show that some
well-formed configuration exists. No real remote has these numbers. -/
def Config.ref : Cfg where
  sPower := 39
  sMode := 36
  wMode := 3
  sAutofan := 35
  sFan := 24
  sTemp := 16
  wTemp := 4
  sCount := 8
  wCount := 2
  mcCool := 1
  mcAuto := 2
  mcDehum := 3
  mcClean := 4
  afCool := 0
  afDehum := 0
  afClean := 0
  fanDefault := 0x08
  fanMax := 0x10
  lvlAuto := 9
  lvlDehum := 5
  lvlClean := 2
  frameReset := 0x5A000000005A#48
  tHdrMark := 8000
  tHdrSpace := 4000
  tBitMark := 500
  tOneSpace := 1500
  tZeroSpace := 500
  tFtrMark := 500
  tFtrSpace := 130000
  tol := fun e => e * 25 / 100
  sinkAddsGap := false

/-- The synthetic configuration REF2 of spec/95_test_vectors.md section 1 (R8): straddling fields, a 3-bit
temperature, a 4-bit counter; for the tests. -/
def Config.ref2 : Cfg where
  sPower := 40
  sMode := 46
  wMode := 2
  sAutofan := 41
  sFan := 30
  sTemp := 21
  wTemp := 3
  sCount := 13
  wCount := 4
  mcCool := 0
  mcAuto := 1
  mcDehum := 2
  mcClean := 3
  afCool := 0
  afDehum := 0
  afClean := 0
  fanDefault := 0x15
  fanMax := 0x1F
  lvlAuto := 6
  lvlDehum := 4
  lvlClean := 7
  frameReset := 0#48
  tHdrMark := 3000
  tHdrSpace := 1500
  tBitMark := 400
  tOneSpace := 1200
  tZeroSpace := 400
  tFtrMark := 400
  tFtrSpace := 130000
  tol := fun _ => 100
  sinkAddsGap := false

theorem Config.ref_wf : Config.ref.WF where
  wf1 := by decide
  wf2 := by decide
  wf3 := by decide
  wf4codes := by decide
  wf4fan := by decide
  wf4autofan := by decide
  wf4levels := by decide
  wf6 := by decide
  wf7 := fun a => by
    rw [Cfg.accepts_iff, Cfg.accepts_iff]
    simp only [ref]
    omega

theorem Config.ref2_wf : Config.ref2.WF where
  wf1 := by decide
  wf2 := by decide
  wf3 := by decide
  wf4codes := by decide
  wf4fan := by decide
  wf4autofan := by decide
  wf4levels := by decide
  wf6 := by decide
  wf7 := fun a => by
    rw [Cfg.accepts_iff, Cfg.accepts_iff]
    simp only [ref2]
    omega

/-- A configuration together with its well-formedness: "a model refuses to build the block from a configuration that
is not well-formed" (R7), so an ill-formed one cannot be given to the machine. The field defaults serve `deriving
Inhabited`, which `opaque` asks for, and nothing else. -/
structure Config.Built where
  cfg : Cfg := Config.ref
  wf : cfg.WF := by exact Config.ref_wf
deriving Inhabited

/-- The configuration the block was built from: opaque, no body (log entry 1). -/
opaque Config.block : Config.Built

/-- The block's configuration record. -/
def Config.cfg : Cfg := Config.block.cfg

/-- All that is known of the block's configuration: it is well-formed (R7, R181). -/
theorem Config.cfg_wf : Config.cfg.WF := Config.block.wf

end Sys2Proof
end

