-- ==== Sys2Proof/Machine/State.lean ====
section
/-! DEFINITION. The state: the two registers of spec/10_state.md (R20), the ports of spec/30_encoding.md (R67), and the
model's own list of what the host will issue (spec/20_memory.md R48; log entry 5). -/

namespace Sys2Proof.Machine

/-- The six ways RXP can fail to match (spec/60_exceptions.md R161, codes 1 to 6; the split is the spec's, D17). -/
inductive NoMatch where
  /-- `d[0]` fails against `T_HDR_MARK` -/
  | headerMark
  /-- `d[1]` fails against `T_HDR_SPACE` -/
  | headerSpace
  /-- `d[2+2k]` fails against `T_BIT_MARK` -/
  | bitMark
  /-- `d[3+2k]` matches neither space constant -/
  | bitSpace
  /-- `d[98]` fails against `T_FTR_MARK` -/
  | footerMark
  /-- the list ends before a needed index -/
  | short
deriving DecidableEq, Repr

/-- The outcome of an operation (R161): a result, never a trap (R163). Its 4-bit code is `OutcomeCode.code`. -/
inductive OutcomeCode where
  /-- success -/
  | ok
  /-- RXP found no frame -/
  | noMatch (why : NoMatch)
  /-- DEC: the stored checksum differs from the recomputed one; all fields are still reported (R164) -/
  | checksumMismatch
  /-- the command word is reserved (R166) -/
  | illegalCommand
deriving DecidableEq, Repr

/-- The record `fields` of DEC: seven raw unsigned values (R121, R124). -/
structure Fields where
  power : Nat
  mode : Nat
  autofan : Nat
  fan : Nat
  temp : Nat
  count : Nat
  checksum : Nat
deriving DecidableEq, Repr

/-- The result ports (R67). `none` is the spec's own "holds no value": before the first operation, and on every port
the last operation does not define (R31, R67; log entry 4). -/
structure ResultPorts where
  outcome : Option OutcomeCode := none
  info : Option (BitVec 7) := none
  fout : Option Frame := none
  fields : Option Fields := none
  checksumValid : Option Bool := none
  diagHi : Option (BitVec 32) := none
  diagLo : Option (BitVec 32) := none
  matched : Option Bool := none
  pout : Option (List Pair) := none
  carrierHz : Option Nat := none
  repeatCount : Option Nat := none
  gapUs : Option Nat := none
deriving DecidableEq, Repr

/-- What the host does next: assert the reset input (R180), or present a command word and the operand ports (R67). -/
inductive Request where
  | reset
  | command (cmd : CmdWord) (fin : Frame) (pin : List Nat)
deriving DecidableEq, Repr

/-- The machine's state. `shadow` and `lastMode` are all the persistent state of the block (R20); the rest are its ports
(R67) and the model's own `pending`. -/
structure State where
  /-- SHADOW, the 48-bit shadow frame (R21) -/
  shadow : Frame
  /-- LASTMODE, the remembered mode (R24) -/
  lastMode : Mode
  /-- input port `cmd`: the command word presented last (R67) -/
  cmd : CmdWord
  /-- input port `fin`: operand frame of DEC and TXP (R67) -/
  fin : Frame
  /-- input port `pin`: operand duration list of RXP (R66, R67) -/
  pin : List Nat
  /-- the result ports (R67) -/
  ports : ResultPorts
  /-- the model's own: the requests the host will issue, first one first (R48; log entry 5) -/
  pending : List Request
deriving DecidableEq, Repr

/-- Faults: there are none, so this type is empty. "An outcome is not a trap" (R163), "There is no trap entry" (R169),
"No command stops the block and none can diverge" (R189). -/
inductive Fault where
deriving DecidableEq, Repr

/-- Refusals. -/
inductive Refusal where
  /-- A command that has no meaning in the model yet. Raised by an arm of `exec` alone; no arm raises it now. Safe. -/
  | notModelled (mnemonic : String)
deriving DecidableEq, Repr

/-- The machine right after reset (R31, R180): SHADOW is `FRAME_RESET`, LASTMODE is Off, no result port holds a value.
The input ports and `pending` are the host's: 0, the empty list and the empty list (DESIGN CHOICE, log entries 5, 6). -/
def State.reset : State where
  shadow := Config.cfg.frameReset
  lastMode := .off
  cmd := 0#16
  fin := 0#48
  pin := []
  ports := {}
  pending := []

end Sys2Proof.Machine
end

