-- ==== Sys2Proof/Machine/Flags.lean ====
section
/-! DEFINITION. The two Boolean results that play the part of flags (spec/10_state.md rule R27) and the outcome codes
(spec/60_exceptions.md rule R161). -/

namespace Sys2Proof.Machine

/-- `checksumValid`: the stored checksum equals the recomputed one (R62, R121). -/
def checksumValid (f : Frame) : Bool :=
  checksum f == getField f cks

/-- The outcome of DEC (R121). -/
def decOutcome (f : Frame) : OutcomeCode :=
  if checksumValid f then .ok else .checksumMismatch

/-- The number of a NoMatch code (R161). -/
def NoMatch.code : NoMatch → BitVec 4
  | .headerMark => 1#4
  | .headerSpace => 2#4
  | .bitMark => 3#4
  | .bitSpace => 4#4
  | .footerMark => 5#4
  | .short => 6#4

/-- The 4-bit outcome code on port `outcome` (R161; the numbers are the spec's, D17, log entry 8). -/
def OutcomeCode.code : OutcomeCode → BitVec 4
  | .ok => 0#4
  | .noMatch why => why.code
  | .checksumMismatch => 7#4
  | .illegalCommand => 8#4

end Sys2Proof.Machine
end

