-- ==== Sys2Proof/Machine/Operands.lean ====
section
/-! DEFINITION. What ENC computes from its operands before it writes a field (spec/40_framecodec_encode.md rules R91 to
R94, spec/00_scope.md rule R16, spec/30_encoding.md rule R72). -/

namespace Sys2Proof.Machine

/-- `Clamp(t)`: saturates to 17..30 (R16). -/
def clamp (t : Int) : Int :=
  if t < tempMin then tempMin else if t > tempMax then tempMax else t

/-- The offset-encoded clamped target, `Clamp(t) - 17 + 1`, a value in 1..14 (R72, R93). -/
def offsetTemp (t : Int) : Nat :=
  (clamp t - tempMin + 1).toNat

/-- The effective control mode `cm` of intent mode `m` when LASTMODE is `last` (R91; reading A of the spec's decision
D6, log entry 2). -/
def controlMode (m last : Mode) : Mode :=
  let cm0 := if m = .off then last else m
  if last = .off ∧ cm0 = .auto then .cool else cm0

/-- A row of the mode table (R92). -/
structure ModeRow where
  fan : Nat
  autofan : Nat
  mode : Nat
deriving DecidableEq, Repr

/-- The mode table keyed by control mode; Off has no row (R92). -/
def modeTable (cfg : Cfg) : Mode → Option ModeRow
  | .cool => some ⟨cfg.fanDefault, cfg.afCool, cfg.mcCool⟩
  | .auto => some ⟨cfg.fanMax, 1, cfg.mcAuto⟩
  | .dehumidify => some ⟨cfg.fanMax, cfg.afDehum, cfg.mcDehum⟩
  | .clean => some ⟨cfg.fanDefault, cfg.afClean, cfg.mcClean⟩
  | .off => none

/-- The temperature value `tv` of control mode `cm` and operand `t` (R93). -/
def tempValue (cfg : Cfg) (cm : Mode) (t : Int) : Nat :=
  match cm with
  | .cool => offsetTemp t
  | .off => offsetTemp t
  | .auto => cfg.lvlAuto
  | .dehumidify => cfg.lvlDehum
  | .clean => cfg.lvlClean

/-- The power bit follows the intent's mode, not the control mode (R95). -/
def powerValue (m : Mode) : Nat :=
  if m = .off then 0 else 1

/-- The new LASTMODE: Off after an Off intent, else the control mode (R94). -/
def nextLastMode (m last : Mode) : Mode :=
  if m = .off then .off else controlMode m last

end Sys2Proof.Machine
end

