-- ==== Sys2Proof/Machine/Ops.lean ====
section
/-! DEFINITION. The operations the commands share: field writes of ENC in the order of spec/40_framecodec_encode.md rule
R95, driving the result ports, reporting an outcome, and what the host's side does (present, reset, refuse). -/

namespace Sys2Proof.Machine

/-- Write a row of the mode table into FAN, AUTOFAN and MODE; with no row nothing is written (R92, R95). -/
def writeModeRow (cfg : Cfg) (row : Option ModeRow) (f : Frame) : Frame :=
  match row with
  | none => f
  | some r => setField (setField (setField f cfg.fan r.fan) cfg.autofan r.autofan) cfg.mode r.mode

/-- The counter step, `(old + 1) mod 2^W_COUNT`, unconditional (R95, R101). -/
def stepCount (cfg : Cfg) (f : Frame) : Frame :=
  setField f cfg.count ((getField f cfg.count + 1) % 2 ^ cfg.wCount)

/-- Put the checksum of bytes 1..5 in byte 0; last of all (R95). -/
def stampChecksum (f : Frame) : Frame :=
  setField f cks (checksum f)

/-- The frame that ENC computes for intent mode `m` and temperature `t` from SHADOW and LASTMODE (R95). -/
def encodeFrame (cfg : Cfg) (m : Mode) (t : Int) (shadow : Frame) (last : Mode) : Frame :=
  let cm := controlMode m last
  let f := setField shadow cfg.power (powerValue m)
  let f := writeModeRow cfg (modeTable cfg cm) f
  let f := setField f cfg.temp (tempValue cfg cm t)
  stampChecksum (stepCount cfg f)

/-- Drive the result ports: those the operation defines hold its results, the others hold no value (R67). -/
def drive (p : ResultPorts) (s : State) : State :=
  { s with ports := p }

/-- The ports after an ENC that produced `f` (R90, R95). -/
def encPorts (f : Frame) : ResultPorts :=
  { outcome := some .ok, info := some 0#7, fout := some f }

/-- ENC: one indivisible step (R46) that reads SHADOW and LASTMODE once and writes both (R95). -/
def enc (cfg : Cfg) (m : Mode) (t : Int) (s : State) : State :=
  let f := encodeFrame cfg m t s.shadow s.lastMode
  drive (encPorts f) { s with shadow := f, lastMode := nextLastMode m s.lastMode }

/-- `raise NoMatch.why(index)`: no frame, `matched` false, the code and the index on their ports; registers untouched
(R141, R163). -/
def raiseNoMatch (why : NoMatch) (index : Nat) : ResultPorts :=
  { outcome := some (.noMatch why), info := some (BitVec.ofNat 7 index), matched := some false }

/-- The ports after a reserved command word: no result but the outcome (R161, R166). -/
def illegalPorts : ResultPorts :=
  { outcome := some .illegalCommand, info := some 0#7 }

/-- A reserved command is refused: no register is read or written, and the next command runs normally (R163, R166). -/
def refuseCommand (s : State) : State :=
  drive illegalPorts s

/-- The host presents a command word and the operand ports (R67); `rest` is what it will issue after. -/
def present (cmd : CmdWord) (fin : Frame) (pin : List Nat) (rest : List Request) (s : State) : State :=
  { s with cmd := cmd, fin := fin, pin := pin, pending := rest }

/-- The reset input: SHADOW is `FRAME_RESET`, LASTMODE Off, no result port holds a value, nothing else changes
(R31, R180). -/
def resetBlock (cfg : Cfg) (s : State) : State :=
  { s with shadow := cfg.frameReset, lastMode := .off, ports := {} }

/-- Put a command word first among the requests the host will issue, its operand ports as they stand. -/
def placeCommand (w : CmdWord) (s : State) : State :=
  { s with pending := .command w s.fin s.pin :: s.pending }

end Sys2Proof.Machine
end

