-- ==== Sys2Proof/Machine/FrameCodec.lean ====
section
/-! DEFINITION. FrameCodec: the five ENC commands (spec/40_framecodec_encode.md) and DEC (spec/41_framecodec_decode.md). -/

namespace Sys2Proof.Machine

/-- ENC.OFF (R96). -/
def execEncOff (t : Int) (s : State) : Host.Outcome State Fault Refusal :=
  .next (enc Config.cfg .off t s)

/-- ENC.COOL (R97). -/
def execEncCool (t : Int) (s : State) : Host.Outcome State Fault Refusal :=
  .next (enc Config.cfg .cool t s)

/-- ENC.AUTO (R98). -/
def execEncAuto (t : Int) (s : State) : Host.Outcome State Fault Refusal :=
  .next (enc Config.cfg .auto t s)

/-- ENC.DEHUM (R99). -/
def execEncDehum (t : Int) (s : State) : Host.Outcome State Fault Refusal :=
  .next (enc Config.cfg .dehumidify t s)

/-- ENC.CLEAN (R100). -/
def execEncClean (t : Int) (s : State) : Host.Outcome State Fault Refusal :=
  .next (enc Config.cfg .clean t s)

/-- Every named field of a frame, raw and unsigned (R121, R124). -/
def extractFields (cfg : Cfg) (f : Frame) : Fields where
  power := getField f cfg.power
  mode := getField f cfg.mode
  autofan := getField f cfg.autofan
  fan := getField f cfg.fan
  temp := getField f cfg.temp
  count := getField f cfg.count
  checksum := getField f cks

/-- `diag_hi = zext_32(f[47:32])` (R122). -/
def diagHi (f : Frame) : BitVec 32 :=
  (f.extractLsb' 32 16).zeroExtend 32

/-- `diag_lo = f[31:0]` (R122). -/
def diagLo (f : Frame) : BitVec 32 :=
  f.extractLsb' 0 32

/-- All that DEC returns for the frame `f` (R121): a mismatch does not block the fields (R164). -/
def decPorts (cfg : Cfg) (f : Frame) : ResultPorts :=
  { outcome := some (decOutcome f)
    info := some 0#7
    fields := some (extractFields cfg f)
    checksumValid := some (checksumValid f)
    diagHi := some (diagHi f)
    diagLo := some (diagLo f) }

/-- DEC of the frame on `fin`; no register is read or written (R120, R121). -/
def execDec (s : State) : Host.Outcome State Fault Refusal :=
  .next (drive (decPorts Config.cfg s.fin) s)

end Sys2Proof.Machine
end

