-- ==== Sys2Proof/Machine/PulseTransport.lean ====
section
/-! DEFINITION. PulseTransport: TXP (spec/42_pulse_tx.md) and RXP (spec/43_pulse_rx.md). It has no state (R20). -/

namespace Sys2Proof.Machine

/-- The header pair, pair 0 (R64). -/
def headerPair (cfg : Cfg) : Pair := ⟨cfg.tHdrMark, cfg.tHdrSpace⟩

/-- The footer pair, pair 49 (R64). -/
def footerPair (cfg : Cfg) : Pair := ⟨cfg.tFtrMark, cfg.tFtrSpace⟩

/-- The pair of one bit slot: a fixed mark, and a space whose length carries the bit (R65, R131). -/
def slotPair (cfg : Cfg) (b : Bool) : Pair :=
  ⟨cfg.tBitMark, if b then cfg.tOneSpace else cfg.tZeroSpace⟩

/-- The pulse sequence of a frame: header, slots 0..47 with slot `k` carrying bit `47 - k`, footer (R43, R131). -/
def toPulses (cfg : Cfg) (f : Frame) : List Pair :=
  headerPair cfg
    :: ((List.range nSlots).map (fun k => slotPair cfg (f.getLsbD (47 - k))) ++ [footerPair cfg])

/-- All that TXP returns (R131, R132). -/
def txpPorts (cfg : Cfg) (f : Frame) : ResultPorts :=
  { outcome := some .ok
    info := some 0#7
    pout := some (toPulses cfg f)
    carrierHz := some fCarrier
    repeatCount := some nRepeat
    gapUs := some tGap }

/-- TXP of the frame on `fin`; no register is read or written, the checksum is not checked (R130, R131). -/
def execTxp (s : State) : Host.Outcome State Fault Refusal :=
  .next (drive (txpPorts Config.cfg s.fin) s)

/-- What RXP raises when a duration does not fit: the code and the index (R141). -/
structure Failure where
  why : NoMatch
  index : Nat
deriving DecidableEq, Repr

/-- `need(i)` and the test of `d[i]` against the constant `e` (R141). -/
def needMatch (cfg : Cfg) (d : List Nat) (i : Nat) (e : Nat) (why : NoMatch) : Except Failure Unit :=
  match d[i]? with
  | none => .error ⟨.short, i⟩
  | some a => if cfg.accepts a e then .ok () else .error ⟨why, i⟩

/-- `need(i)` and the classification of the space `d[i]`, the one-space tried first (R141, R145). -/
def needBit (cfg : Cfg) (d : List Nat) (i : Nat) : Except Failure Bool :=
  match d[i]? with
  | none => .error ⟨.short, i⟩
  | some a =>
    if cfg.accepts a cfg.tOneSpace then .ok true
    else if cfg.accepts a cfg.tZeroSpace then .ok false
    else .error ⟨.bitSpace, i⟩

/-- The loop over the bit slots: `n` of them from slot `k` on, `f` accumulated MSB first as `2*f + b` (R141). -/
def rxSlots (cfg : Cfg) (d : List Nat) : (n k f : Nat) → Except Failure Nat
  | 0, _, f => .ok f
  | n + 1, k, f => do
    needMatch cfg d (2 + 2 * k) cfg.tBitMark .bitMark
    let b ← needBit cfg d (3 + 2 * k)
    rxSlots cfg d n (k + 1) (2 * f + b.toNat)

/-- RXP: the checks in index order, the first failure ends it; `d[99]` and what follows is never read (R141, R142,
R144). -/
def fromPulses (cfg : Cfg) (d : List Nat) : Except Failure Frame := do
  needMatch cfg d 0 cfg.tHdrMark .headerMark
  needMatch cfg d 1 cfg.tHdrSpace .headerSpace
  let f ← rxSlots cfg d nSlots 0 0
  needMatch cfg d 98 cfg.tFtrMark .footerMark
  return BitVec.ofNat 48 f

/-- All that RXP returns (R140, R141). -/
def rxpPorts (cfg : Cfg) (d : List Nat) : ResultPorts :=
  match fromPulses cfg d with
  | .ok f => { outcome := some .ok, info := some 0#7, fout := some f, matched := some true }
  | .error e => raiseNoMatch e.why e.index

/-- RXP of the duration list on `pin`; no register is read or written (R140, R141). -/
def execRxp (s : State) : Host.Outcome State Fault Refusal :=
  .next (drive (rxpPorts Config.cfg s.pin) s)

end Sys2Proof.Machine
end

