-- ==== Sys2Proof/Machine/Dispatch.lean ====
section
/-! DEFINITION. One arm for each command: the opcode map of spec/30_encoding.md rule R73. -/

namespace Sys2Proof.Machine

def exec (i : Instr) (s : State) : Host.Outcome State Fault Refusal :=
  match i with
  | .encOff t => Sys2Proof.Machine.execEncOff t s
  | .encCool t => Sys2Proof.Machine.execEncCool t s
  | .encAuto t => Sys2Proof.Machine.execEncAuto t s
  | .encDehum t => Sys2Proof.Machine.execEncDehum t s
  | .encClean t => Sys2Proof.Machine.execEncClean t s
  | .dec => Sys2Proof.Machine.execDec s
  | .txp => Sys2Proof.Machine.execTxp s
  | .rxp => Sys2Proof.Machine.execRxp s

end Sys2Proof.Machine
end

