-- ==== Sys2Proof/Machine/Step.lean ====
section
/-! DEFINITION. One step: the host's next request is taken, and nothing happens where there is none (spec/20_memory.md
rule R48, spec/60_exceptions.md rule R177, spec/70_reset_and_hazards.md rule R180). -/

namespace Sys2Proof.Machine

/-- The command on port `cmd` is performed; a reserved word is refused (R67, R166). -/
def transact (s : State) : Host.Outcome State Fault Refusal :=
  match decode s.cmd with
  | .ok i => exec i s
  | .error _ => .next (refuseCommand s)

/-- One step of the machine. -/
def step (s : State) : Host.Outcome State Fault Refusal :=
  match s.pending with
  | [] => .next s
  | .reset :: rest => .next (resetBlock Config.cfg { s with pending := rest })
  | .command cmd fin pin :: rest => transact (present cmd fin pin rest s)

/-- `s` with the command word `w` as the host's next command, so that the next step performs it (log entry 5). -/
def State.withFetchWord (s : State) (nbits w : Nat) : State :=
  placeCommand (BitVec.ofNat 16 (w % 2 ^ nbits)) s

end Sys2Proof.Machine
end

