-- ==== Sys2Proof/Machine/Composite.lean ====
section
/-! DEFINITION. The two pseudo-operations XMIT.m and RECV (spec/44_composite.md; spec/30_encoding.md rule R78). They have
no command word: a host issues their two commands in turn, so `exec` has no arm for them. -/

namespace Sys2Proof.Machine

/-- The ENC form of an intent's mode (R95, R96 to R100). -/
def execEnc (m : Mode) (t : Int) (s : State) : Host.Outcome State Fault Refusal :=
  match m with
  | .off => execEncOff t s
  | .cool => execEncCool t s
  | .auto => execEncAuto t s
  | .dehumidify => execEncDehum t s
  | .clean => execEncClean t s

/-- XMIT.m t: `ENC.m t`, then TXP on the frame that ENC returned (R155). The result ports are TXP's; ENC's `fout` is no
result of XMIT.

DESIGN CHOICE (log entry 14): the spec gives no input port a content after XMIT, which has no word (R78). The model sets
`fin` to the frame that TXP was given, and leaves `cmd`, `pin` and `pending` as they stood. -/
def xmit (m : Mode) (t : Int) (s : State) : Host.Outcome State Fault Refusal :=
  match execEnc m t s with
  | .next s1 =>
    match s1.ports.fout with
    | some g => execTxp { s1 with fin := g }
    | none => .next s1
  | .fault r => .fault r
  | .refused r => .refused r

/-- The results of a RECV that matched, from RXP's ports `r` and DEC's ports `p`: all that DEC returns, and `matched` as
RXP returned it, since RECV has both flags (R156).

DESIGN CHOICE (log entry 16): RXP's `fout` is handed to DEC and is no result of RECV. -/
def recvPorts (r p : ResultPorts) : ResultPorts :=
  { p with matched := r.matched }

/-- RECV d: `RXP d`, and on a match DEC on the frame that RXP returned; else stop with RXP's outcome (R156). RXP returns
`fout` exactly when it matches (R140).

DESIGN CHOICE (log entry 14): the spec gives no input port a content after RECV, which has no word (R78). The model sets
`pin` to the list, and on a match `fin` to the frame that DEC was given; `cmd` and `pending` stay as they stood. -/
def recv (d : List Nat) (s : State) : Host.Outcome State Fault Refusal :=
  match execRxp { s with pin := d } with
  | .next s1 =>
    match s1.ports.fout with
    | some f =>
      match execDec { s1 with fin := f } with
      | .next s2 => .next (drive (recvPorts s1.ports s2.ports) s2)
      | .fault r => .fault r
      | .refused r => .refused r
    | none => .next s1
  | .fault r => .fault r
  | .refused r => .refused r

end Sys2Proof.Machine
end

