-- ==== Sys2Proof/Machine/Waveform.lean ====
section
/-! DEFINITION. What follows from a pulse sequence outside the block: the flat list of its durations (spec/20_memory.md
rule R41), its duration (spec/42_pulse_tx.md rule R133), and the waveform a sink that honours the contract puts on the
air (rule R134). No command depends on any of these. -/

namespace Sys2Proof.Machine

/-- Pair `p` is durations `2p` (its mark) and `2p+1` (its space) (R41). -/
def flat : List Pair → List Nat
  | [] => []
  | p :: ps => p.mark :: p.space :: flat ps

/-- The number of 1 bits of a frame (R133 `n1`). -/
def onesCount (f : Frame) : Nat :=
  ((List.range 48).map (fun i => (f.getLsbD i).toNat)).sum

/-- `Len(f)`, the duration of one sequence in microseconds (R133). -/
def sequenceLength (cfg : Cfg) (f : Frame) : Nat :=
  cfg.tHdrMark + cfg.tHdrSpace + 48 * cfg.tBitMark + onesCount f * cfg.tOneSpace
    + (48 - onesCount f) * cfg.tZeroSpace + cfg.tFtrMark + cfg.tFtrSpace

/-- A stretch of the on-air waveform: carrier on or off, and for how long. -/
structure Stretch where
  carrierOn : Bool
  length : Nat
deriving DecidableEq, Repr

/-- One replay: carrier on during every mark and off during every space (R134). -/
def onAirOnce : List Pair → List Stretch
  | [] => []
  | p :: ps => ⟨true, p.mark⟩ :: ⟨false, p.space⟩ :: onAirOnce ps

/-- The idle time the sink itself inserts between two replays: `gap` if and only if `SINK_ADDS_GAP` (R134). -/
def sinkGap (cfg : Cfg) (gap : Nat) : List Stretch :=
  if cfg.sinkAddsGap then [⟨false, gap⟩] else []

/-- The sequence replayed `n` times, with the sink's gap between replays (R134). -/
def onAir (cfg : Cfg) (ps : List Pair) (gap : Nat) : (n : Nat) → List Stretch
  | 0 => []
  | 1 => onAirOnce ps
  | n + 2 => onAirOnce ps ++ sinkGap cfg gap ++ onAir cfg ps gap (n + 1)

end Sys2Proof.Machine
end

