-- ==== Sys2Proof/Machine/Run.lean ====
section
/-! DEFINITION. A program of spec/30_encoding.md rule R77 as the requests it stands for, and a run: a finite list of
requests, executed in order, which ends with the registers and the list of results (spec/70_reset_and_hazards.md rule
R189). -/

namespace Sys2Proof.Machine

/-- One line of a program (R77). The pseudo-operations XMIT and RECV are in Machine/Composite.lean. -/
inductive Line where
  /-- `ENC.m t` -/
  | enc (m : Mode) (t : Int)
  /-- `DEC f` -/
  | dec (f : Frame)
  /-- `TXP f` -/
  | txp (f : Frame)
  /-- `RXP d0 d1 ...` -/
  | rxp (d : List Nat)
  /-- `RESET`: the reset input, not a command word -/
  | reset
deriving DecidableEq, Repr

/-- The request of a line: `f` travels on `fin` and the durations on `pin`, not in the word (R77); a port the command
does not use carries nothing of interest (0, the empty list). -/
def assembleLine : Line → Request
  | .enc m t => .command (encWord m t) 0#48 []
  | .dec f => .command (encode .dec) f []
  | .txp f => .command (encode .txp) f []
  | .rxp d => .command (encode .rxp) 0#48 d
  | .reset => .reset

/-- Run the requests one after another: the end state and the result ports after each. A step that is no next state would
end the run (none is: every step answers a next state). -/
def run : List Request → State → State × List ResultPorts
  | [], s => (s, [])
  | r :: rs, s =>
    match step { s with pending := [r] } with
    | .next t => ((run rs t).1, t.ports :: (run rs t).2)
    | .fault _ => (s, [])
    | .refused _ => (s, [])

end Sys2Proof.Machine
end

