-- ==== Sys2Proof/Safety.lean ====
section
/-! DEFINITION. What a safe step and a sound state are, in the terms the statements use. -/

namespace Sys2Proof.Machine

/-- The step goes on to a next state: no trap, no stop (spec/60_exceptions.md R163, spec/70_reset_and_hazards.md R189). -/
def State.Goes (s : State) : Prop :=
  ∃ t, step s = .next t

/-- The unnamed bits of SHADOW are those of `FRAME_RESET` (spec/10_state.md R23, spec/30_encoding.md R63). -/
def State.UnnamedKept (s : State) : Prop :=
  ∀ i, Config.cfg.Unnamed i → s.shadow.getLsbD i = Config.cfg.frameReset.getLsbD i

/-- SHADOW is `FRAME_RESET`, or checksum-valid (spec/10_state.md R21, R23). -/
def State.ChecksumKept (s : State) : Prop :=
  s.shadow = Config.cfg.frameReset ∨ checksumValid s.shadow = true

/-- The shapes the result ports can have after a step (spec/30_encoding.md R67, spec/60_exceptions.md R161): no value at
all, or the results of an ENC, a DEC, a TXP, a matching RXP, a NoMatch with its index, or IllegalCommand alone. RECV is no
step (R78): after a match it leaves DEC's results with `matched` beside them, which is none of these. -/
inductive ResultPorts.Shaped : ResultPorts → Prop where
  /-- before the first operation (R31) -/
  | empty : ResultPorts.Shaped {}
  /-- ENC (R90) -/
  | enc (f : Frame) (h : Machine.checksumValid f = true) :
      ResultPorts.Shaped { outcome := some .ok, info := some 0#7, fout := some f }
  /-- DEC (R120) -/
  | dec (fs : Fields) (v : Bool) (hi lo : BitVec 32) (h : hi.toNat < 2 ^ 16) :
      ResultPorts.Shaped
        { outcome := some (if v then .ok else .checksumMismatch), info := some 0#7, fields := some fs,
          checksumValid := some v, diagHi := some hi, diagLo := some lo }
  /-- TXP (R130, R132) -/
  | txp (ps : List Pair) (h : ps.length = 50) :
      ResultPorts.Shaped
        { outcome := some .ok, info := some 0#7, pout := some ps, carrierHz := some 38000,
          repeatCount := some 3, gapUs := some 130000 }
  /-- RXP found a frame (R140) -/
  | matched (f : Frame) :
      ResultPorts.Shaped
        { outcome := some .ok, info := some 0#7, fout := some f, matched := some true }
  /-- RXP found none (R140, R161) -/
  | noMatch (why : NoMatch) (i : BitVec 7) (h : i.toNat ≤ 98) :
      ResultPorts.Shaped
        { outcome := some (.noMatch why), info := some i, matched := some false }
  /-- a reserved command (R166) -/
  | illegal : ResultPorts.Shaped { outcome := some .illegalCommand, info := some 0#7 }

/-- The result ports hold what some command defines, and nothing else. -/
def State.PortsShaped (s : State) : Prop :=
  s.ports.Shaped

/-- What the check of RXP at index `i` finds, by itself: `none` where the duration fits, else the code it raises
(spec/43_pulse_rx.md R141; spec/60_exceptions.md R161). -/
def checkAt (cfg : Cfg) (d : List Nat) (i : Nat) : Option NoMatch :=
  match d[i]? with
  | none => some .short
  | some a =>
    if i = 0 then (if cfg.accepts a cfg.tHdrMark then none else some .headerMark)
    else if i = 1 then (if cfg.accepts a cfg.tHdrSpace then none else some .headerSpace)
    else if i = 98 then (if cfg.accepts a cfg.tFtrMark then none else some .footerMark)
    else if i % 2 = 0 then (if cfg.accepts a cfg.tBitMark then none else some .bitMark)
    else if cfg.accepts a cfg.tOneSpace then none
    else if cfg.accepts a cfg.tZeroSpace then none
    else some .bitSpace

/-- The last three writes of every ENC: TEMP, the counter step, and the checksum last (R95). -/
def finishFrame (c : Cfg) (tv : Nat) (f : Frame) : Frame :=
  let f1 := setField f c.temp tv
  let f2 := setField f1 c.count ((getField f1 c.count + 1) % 2 ^ c.wCount)
  setField f2 cks (checksum f2)

/-- The three fields of the mode table, written one after another (R92). -/
def writeRow (c : Cfg) (fan autofan mode : Nat) (f : Frame) : Frame :=
  setField (setField (setField f c.fan fan) c.autofan autofan) c.mode mode

/-- The state after an ENC that produced `f` and remembers `m`: SHADOW, LASTMODE and the result ports are written, the
rest of the state is not (R90, R95). -/
def afterEnc (f : Frame) (m : Mode) (s : State) : State :=
  { s with
    shadow := f, lastMode := m,
    ports := { outcome := some .ok, info := some 0#7, fout := some f } }

/-- The five ENC commands (spec/30_encoding.md R73). -/
def isEnc : Instr → Bool
  | .encOff _ => true
  | .encCool _ => true
  | .encAuto _ => true
  | .encDehum _ => true
  | .encClean _ => true
  | .dec => false
  | .txp => false
  | .rxp => false

/-- The intent's mode of an ENC command (spec/30_encoding.md R70). -/
def intentOf : Instr → Option Mode
  | .encOff _ => some .off
  | .encCool _ => some .cool
  | .encAuto _ => some .auto
  | .encDehum _ => some .dehumidify
  | .encClean _ => some .clean
  | .dec => none
  | .txp => none
  | .rxp => none

/-- The temperature operand of an ENC command (spec/30_encoding.md R71). -/
def operandOf : Instr → Option Int
  | .encOff t => some t
  | .encCool t => some t
  | .encAuto t => some t
  | .encDehum t => some t
  | .encClean t => some t
  | .dec => none
  | .txp => none
  | .rxp => none

end Sys2Proof.Machine
end

