-- ==== Sys2Proof/Certificates/Slice0/Obligations.lean ====
section
/-! DEFINITION. The statements for the provers. Those about `exec` and `step` are about the block's own configuration,
of which nothing is known but that it is well-formed; those about a shared operation hold for every configuration, or for
every well-formed one. -/

open Sys2Proof Sys2Proof.Machine

/-! ### Reset and the step -/

/-- The state right after reset (R31, R180). LASTMODE = Off is the spec's own choice (D11, log entry 3); FRAME_RESET is
whatever the block's configuration holds (log entry 1). -/
def Obligations.ResetLeavesFrameResetAndOff : Prop :=
  State.reset.shadow = Config.cfg.frameReset ∧ State.reset.lastMode = .off ∧ State.reset.ports = {}

/-- The reset input, taken between commands, from any state (R180; D11, log entry 3). -/
def Obligations.ResetRequestRestoresTheRegisters : Prop :=
  ∀ (s : State) (rest : List Request), s.pending = .reset :: rest →
    step s = .next { s with
      shadow := Config.cfg.frameReset, lastMode := .off, ports := {}, pending := rest }

/-- A presented command word that decodes is executed, with the operand ports the host presents and the request consumed
(R48, R67). -/
def Obligations.StepRunsTheDecodedCommand : Prop :=
  ∀ (s : State) (w : CmdWord) (f : Frame) (d : List Nat) (rest : List Request) (i : Instr),
    s.pending = .command w f d :: rest → decode w = .ok i →
      step s = exec i { s with cmd := w, fin := f, pin := d, pending := rest }

/-- A table word placed as the next command is what the next step executes (the model's host interface, log entry 5). -/
def Obligations.PlacedWordIsExecutedNext : Prop :=
  ∀ (s : State) (nbits w : Nat) (i : Instr), decodeTableWord nbits w = some i →
    step (s.withFetchWord nbits w) = exec i { s with cmd := BitVec.ofNat 16 (w % 2 ^ nbits) }

/-- A reserved command word changes no register and produces no result but the outcome; the machine goes on (R74, R163,
R166; D5, log entry 8). -/
def Obligations.ReservedWordIsRefusedAndTheMachineGoesOn : Prop :=
  ∀ (s : State) (w : CmdWord) (f : Frame) (d : List Nat) (rest : List Request) (r : Reserved),
    s.pending = .command w f d :: rest → decode w = .error r →
      step s = .next { s with
        cmd := w, fin := f, pin := d, pending := rest,
        ports := { outcome := some .illegalCommand, info := some 0#7 } }

/-- With no command to perform, a step changes nothing (R177). -/
def Obligations.IdleStepHoldsEverything : Prop :=
  ∀ s : State, s.pending = [] → step s = .next s

/-- No command stops the block, from any state (R163, R189). -/
def Obligations.EveryStepGoesOn : Prop :=
  ∀ s : State, s.Goes

/-! ### The command word -/

/-- Decoding the encoding of any well-formed command gives it back (R71, R73, R77). -/
def Obligations.DecodeOfEncodeIsTheCommand : Prop :=
  ∀ i : Instr, i.wellFormed = true → decode (encode i) = .ok i

/-- A word that decodes is the encoding of what it decodes to, and that command is well-formed: no word has a second
spelling (R73). -/
def Obligations.EncodeOfDecodeIsTheWord : Prop :=
  ∀ (w : CmdWord) (i : Instr), decode w = .ok i → i.wellFormed = true ∧ encode i = w

/-- The opcode table of R73, row by row, with `t = sext(cmd[7:0])` (R71); a word of no row is reserved. The numbering is
the spec's own (D3, log entry 7). -/
def Obligations.DecodeFollowsTheOpcodeTable : Prop :=
  ∀ w : CmdWord,
    let t := (w.extractLsb' 0 8).toInt
    (w &&& 0xFF00#16 = 0x0000#16 → decode w = .ok (.encOff t))
    ∧ (w &&& 0xFF00#16 = 0x0100#16 → decode w = .ok (.encCool t))
    ∧ (w &&& 0xFF00#16 = 0x0200#16 → decode w = .ok (.encAuto t))
    ∧ (w &&& 0xFF00#16 = 0x0300#16 → decode w = .ok (.encDehum t))
    ∧ (w &&& 0xFF00#16 = 0x0400#16 → decode w = .ok (.encClean t))
    ∧ (w &&& 0xFFFF#16 = 0x1000#16 → decode w = .ok .dec)
    ∧ (w &&& 0xFFFF#16 = 0x2000#16 → decode w = .ok .txp)
    ∧ (w &&& 0xFFFF#16 = 0x3000#16 → decode w = .ok .rxp)
    ∧ ((∀ i : Instr, w &&& tableMask i ≠ tableMatch i) → ∃ r, decode w = .error r)

/-- The reserved words of R74, and no others, are refused by the decoder (D5, D27). -/
def Obligations.ReservedWordsAreExactlyThoseOfTheList : Prop :=
  ∀ w : CmdWord,
    (∃ r, decode w = .error r) ↔
      (4 ≤ (w >>> 12).toNat
        ∨ w.getLsbD 11 = true
        ∨ ((w >>> 12).toNat = 0 ∧ 5 ≤ (w >>> 8).toNat % 8)
        ∨ (1 ≤ (w >>> 12).toNat ∧ (w >>> 12).toNat ≤ 3 ∧ w.toNat % 2 ^ 12 ≠ 0))

/-- Words written out from R68 and R73 (the vectors W1 to W12 of 95_test_vectors.md, derived from the rules). -/
def Obligations.SampleWordsDecodeAsWritten : Prop :=
  decode 0x0018#16 = .ok (.encOff 24) ∧ decode 0x0118#16 = .ok (.encCool 24)
  ∧ decode 0x0180#16 = .ok (.encCool (-128)) ∧ decode 0x01FF#16 = .ok (.encCool (-1))
  ∧ decode 0x021A#16 = .ok (.encAuto 26) ∧ decode 0x0314#16 = .ok (.encDehum 20)
  ∧ decode 0x0411#16 = .ok (.encClean 17) ∧ decode 0x1000#16 = .ok .dec
  ∧ decode 0x2000#16 = .ok .txp ∧ decode 0x3000#16 = .ok .rxp
  ∧ decode 0x0518#16 = .error .mode ∧ decode 0x0918#16 = .error .bit11
  ∧ decode 0x1001#16 = .error .operandBits ∧ decode 0x4000#16 = .error .op

/-! ### ENC: the five results -/

/-- ENC.OFF (R96), with LASTMODE as the control mode. Rests on reading A of the ambiguous sentence (the spec's decision D6,
log entry 2). -/
def Obligations.EncOffResendsTheLastModeWithPowerClear : Prop :=
  (∀ (t : Int) (s : State),
    let c := Config.cfg
    let f := setField s.shadow c.power 0
    exec (.encOff t) s = .next (afterEnc
      (match s.lastMode with
        | .off => finishFrame c (clamp t - 16).toNat f
        | .cool => finishFrame c (clamp t - 16).toNat (writeRow c c.fanDefault c.afCool c.mcCool f)
        | .auto => finishFrame c c.lvlAuto (writeRow c c.fanMax 1 c.mcAuto f)
        | .dehumidify => finishFrame c c.lvlDehum (writeRow c c.fanMax c.afDehum c.mcDehum f)
        | .clean => finishFrame c c.lvlClean (writeRow c c.fanDefault c.afClean c.mcClean f))
      .off s))
  ∧ encodeFrame Config.ref .off 24 0x5A90080801FB#48 .cool = 0x5A100808027C#48

/-- ENC.COOL, the whole of R97: word, effect, corner cases, example. -/
def Obligations.EncCoolWritesTheCoolRowAndTheClampedTarget : Prop :=
  (∀ t : Int, encode (.encCool t) = 0x0100#16 ||| (BitVec.ofInt 8 t).setWidth 16)
  ∧ (∀ (t : Int) (s : State),
      let c := Config.cfg
      exec (.encCool t) s = .next (afterEnc
        (finishFrame c (clamp t - 16).toNat
          (writeRow c c.fanDefault c.afCool c.mcCool (setField s.shadow c.power 1)))
        .cool s))
  ∧ (∀ (t : Int) (s u : State), exec (.encCool t) s = .next u →
      (t ≤ 17 → getField u.shadow Config.cfg.temp = 1 % 2 ^ Config.cfg.wTemp)
      ∧ (30 ≤ t → getField u.shadow Config.cfg.temp = 14 % 2 ^ Config.cfg.wTemp))
  ∧ (∀ (t : Int) (s : State),
      (t ≤ 17 → exec (.encCool t) s = exec (.encCool 17) s)
      ∧ (30 ≤ t → exec (.encCool t) s = exec (.encCool 30) s))
  ∧ (∀ (t : Int) (s : State) (m : Mode),
      exec (.encCool t) { s with lastMode := m } = exec (.encCool t) s)
  ∧ encodeFrame Config.ref .cool 24 0x5A000000005A#48 .off = 0x5A90080801FB#48

/-- ENC.AUTO (R98): a true Auto, or after Off or reset a Cool. Rests on the spec's decision D6 (log entry 2). -/
def Obligations.EncAutoDegradesToCoolAfterOff : Prop :=
  (∀ (t : Int) (s : State),
    let c := Config.cfg
    let f := setField s.shadow c.power 1
    (s.lastMode ≠ .off →
      exec (.encAuto t) s = .next (afterEnc
        (finishFrame c c.lvlAuto (writeRow c c.fanMax 1 c.mcAuto f)) .auto s))
    ∧ (s.lastMode = .off →
      exec (.encAuto t) s = .next (afterEnc
        (finishFrame c (clamp t - 16).toNat (writeRow c c.fanDefault c.afCool c.mcCool f)) .cool s)
      ∧ exec (.encAuto t) s = exec (.encCool t) s))
  ∧ encodeFrame Config.ref .auto 24 0x5A000000005A#48 .off = 0x5A90080801FB#48
  ∧ encodeFrame Config.ref .auto 24 0x5A90080801FB#48 .cool = 0x5AA81009021D#48

/-- ENC.DEHUM, the whole of R99: word, effect, no dependence on `t` or LASTMODE, example. -/
def Obligations.EncDehumWritesTheDehumidifyRow : Prop :=
  (∀ t : Int, encode (.encDehum t) = 0x0300#16 ||| (BitVec.ofInt 8 t).setWidth 16)
  ∧ (∀ (t : Int) (s : State),
      let c := Config.cfg
      exec (.encDehum t) s = .next (afterEnc
        (finishFrame c c.lvlDehum
          (writeRow c c.fanMax c.afDehum c.mcDehum (setField s.shadow c.power 1)))
        .dehumidify s))
  ∧ (∀ (t t' : Int) (s : State) (m : Mode),
      exec (.encDehum t') { s with lastMode := m } = exec (.encDehum t) s)
  ∧ encodeFrame Config.ref .dehumidify 24 0x5A000000005A#48 .off = 0x5AB010050120#48

/-- ENC.CLEAN, the whole of R100: word, effect, no dependence on `t` or LASTMODE, example. -/
def Obligations.EncCleanWritesTheCleanRow : Prop :=
  (∀ t : Int, encode (.encClean t) = 0x0400#16 ||| (BitVec.ofInt 8 t).setWidth 16)
  ∧ (∀ (t : Int) (s : State),
      let c := Config.cfg
      exec (.encClean t) s = .next (afterEnc
        (finishFrame c c.lvlClean
          (writeRow c c.fanDefault c.afClean c.mcClean (setField s.shadow c.power 1)))
        .clean s))
  ∧ (∀ (t t' : Int) (s : State) (m : Mode),
      exec (.encClean t') { s with lastMode := m } = exec (.encClean t) s)
  ∧ encodeFrame Config.ref .clean 24 0x5A000000005A#48 .off = 0x5AC008020125#48

/-! ### ENC: laws and frames -/

/-- The 25 cells of the table of R91 (reading A, the spec's decision D6, log entry 2). -/
def Obligations.ControlModeFollowsItsTable : Prop :=
  (∀ last : Mode, controlMode .off last = last)
  ∧ (∀ last : Mode, controlMode .cool last = .cool)
  ∧ controlMode .auto .off = .cool
  ∧ (∀ last : Mode, last ≠ .off → controlMode .auto last = .auto)
  ∧ (∀ last : Mode, controlMode .dehumidify last = .dehumidify)
  ∧ (∀ last : Mode, controlMode .clean last = .clean)

/-- What each field of the frame holds after an ENC, under every well-formed configuration (R22, R92, R93, R95); the
control mode is that of R91 (D6, log entry 2). -/
def Obligations.EncFieldsHoldWhatTheTablesSay : Prop :=
  ∀ (c : Cfg), c.WF → ∀ (m : Mode) (t : Int) (shadow : Frame) (last : Mode),
    let g := encodeFrame c m t shadow last
    let cm := controlMode m last
    getField g c.power = (if m = .off then 0 else 1)
    ∧ getField g c.temp = tempValue c cm t % 2 ^ c.wTemp
    ∧ getField g c.count = (getField shadow c.count + 1) % 2 ^ c.wCount
    ∧ getField g cks = checksum g
    ∧ (cm = .off → getField g c.fan = getField shadow c.fan
        ∧ getField g c.autofan = getField shadow c.autofan
        ∧ getField g c.mode = getField shadow c.mode)
    ∧ (∀ r : ModeRow, modeTable c cm = some r →
        getField g c.fan = r.fan ∧ getField g c.autofan = r.autofan ∧ getField g c.mode = r.mode)

/-- The frame of the five ENC commands: no unnamed bit of SHADOW changes, no input port and no pending request; and the
fields of the mode table keep their values when the control mode is Off, which is ENC.OFF with LASTMODE Off (R22, R25, R91,
R92, R95; D6, D8, log entry 2). -/
def Obligations.EncLeavesUnnamedBitsAndInputsAlone : Prop :=
  ∀ (i : Instr) (s u : State), isEnc i = true → exec i s = .next u →
    u.cmd = s.cmd ∧ u.fin = s.fin ∧ u.pin = s.pin ∧ u.pending = s.pending
    ∧ (∀ j, Config.cfg.Unnamed j → u.shadow.getLsbD j = s.shadow.getLsbD j)
    ∧ (∀ m, intentOf i = some m → controlMode m s.lastMode = .off →
        getField u.shadow Config.cfg.fan = getField s.shadow Config.cfg.fan
        ∧ getField u.shadow Config.cfg.autofan = getField s.shadow Config.cfg.autofan
        ∧ getField u.shadow Config.cfg.mode = getField s.shadow Config.cfg.mode)

/-- The frame of DEC, TXP and RXP: nothing changes but the result ports (R25, R47, R120, R130, R140). -/
def Obligations.DecTxpRxpChangeOnlyTheResultPorts : Prop :=
  ∀ (i : Instr) (s u : State), isEnc i = false → exec i s = .next u →
    u = { s with ports := u.ports }

/-- Every frame an ENC returns is checksum-valid, whatever SHADOW held (R102 a). -/
def Obligations.EveryEncodedFrameIsChecksumValid : Prop :=
  ∀ (c : Cfg) (m : Mode) (t : Int) (shadow : Frame) (last : Mode),
    checksumValid (encodeFrame c m t shadow last) = true

/-- Over any run of ENC commands the COUNT field of the frames returned takes consecutive values modulo 2^W_COUNT, with no
skips (R23, R102 b; once per ENC, D25). -/
def Obligations.CountTakesConsecutiveValues : Prop :=
  ∀ (l : List (Mode × Int)) (s : State),
    let r := run (l.map fun p => .command (encWord p.1 p.2) 0#48 []) s
    let count := fun f => getField f Config.cfg.count
    count r.1.shadow = (count s.shadow + l.length) % 2 ^ Config.cfg.wCount
    ∧ r.2.length = l.length
    ∧ ∀ k, k < l.length → ∃ f, r.2[k]? = some (encPorts f)
        ∧ count f = (count s.shadow + k + 1) % 2 ^ Config.cfg.wCount

/-- A target outside 17..30 gives the same frame and the same state as the clamped target (R102 c). -/
def Obligations.ClampedTargetGivesTheSameResult : Prop :=
  ∀ (t : Int) (s : State),
    exec (.encOff t) s = exec (.encOff (clamp t)) s
    ∧ exec (.encCool t) s = exec (.encCool (clamp t)) s
    ∧ exec (.encAuto t) s = exec (.encAuto (clamp t)) s
    ∧ exec (.encDehum t) s = exec (.encDehum (clamp t)) s
    ∧ exec (.encClean t) s = exec (.encClean (clamp t)) s

/-- ENC.COOL t then ENC.OFF t: the second frame has the FAN, AUTOFAN, MODE and TEMP of the first, and POWER 0
(R102 d). -/
def Obligations.OffAfterCoolKeepsTheCoolFields : Prop :=
  ∀ (t : Int) (s : State), ∃ u v : State,
    exec (.encCool t) s = .next u ∧ exec (.encOff t) u = .next v
    ∧ getField v.shadow Config.cfg.fan = getField u.shadow Config.cfg.fan
    ∧ getField v.shadow Config.cfg.autofan = getField u.shadow Config.cfg.autofan
    ∧ getField v.shadow Config.cfg.mode = getField u.shadow Config.cfg.mode
    ∧ getField v.shadow Config.cfg.temp = getField u.shadow Config.cfg.temp
    ∧ getField u.shadow Config.cfg.power = 1
    ∧ getField v.shadow Config.cfg.power = 0

/-- The same ENC command twice gives two different frames, because COUNT moves (R29, R47). -/
def Obligations.TheSameEncTwiceGivesDifferentFrames : Prop :=
  ∀ (i : Instr) (s u v : State), isEnc i = true → exec i s = .next u → exec i u = .next v →
    v.shadow ≠ u.shadow

/-- What an ENC computes depends on SHADOW and LASTMODE alone, on no port and on nothing the host still has to issue
(R25, R30). -/
def Obligations.EncDependsOnTheRegistersAlone : Prop :=
  ∀ (i : Instr) (s s' u u' : State), isEnc i = true → s.shadow = s'.shadow → s.lastMode = s'.lastMode →
    exec i s = .next u → exec i s' = .next u' →
      u.shadow = u'.shadow ∧ u.lastMode = u'.lastMode ∧ u.ports = u'.ports

/-! ### Invariants -/

/-- Every step keeps the unnamed bits of SHADOW as `FRAME_RESET` has them (R23, R63, R102 e; D20). -/
def Obligations.EveryStepKeepsTheUnnamedBits : Prop :=
  ∀ s u : State, s.UnnamedKept → step s = .next u → u.UnnamedKept

/-- Every step keeps SHADOW either `FRAME_RESET` or checksum-valid (R21, R23). -/
def Obligations.EveryStepKeepsTheChecksumInvariant : Prop :=
  ∀ s u : State, s.ChecksumKept → step s = .next u → u.ChecksumKept

/-- Every step leaves the result ports in a shape that some operation defines: fout of an ENC checksum-valid, 50 pairs and
38000, 3, 130000 from TXP, an index of at most 98 with a NoMatch, the outcome alone after a reserved word (R67, R161). -/
def Obligations.EveryStepKeepsTheResultPortsShaped : Prop :=
  ∀ s u : State, s.PortsShaped → step s = .next u → u.PortsShaped

/-- The three invariants hold right after reset. -/
def Obligations.ResetMeetsTheThreeInvariants : Prop :=
  State.reset.UnnamedKept ∧ State.reset.ChecksumKept ∧ State.reset.PortsShaped

/-! ### Frame primitives and operands -/

/-- SetField, the whole of R13: the formula, the bits it replaces and the bits it leaves, the result again below 2^48. -/
def Obligations.SetFieldReplacesTheFieldBitsOnly : Prop :=
  ∀ (f : Frame) (F : Field) (v : Nat), F.shift + F.width ≤ 48 →
    (setField f F v).toNat
        = (f.toNat - getField f F * 2 ^ F.shift) + (v % 2 ^ F.width) * 2 ^ F.shift
    ∧ (setField f F v).toNat < 2 ^ 48
    ∧ (∀ i, F.shift ≤ i → i < F.shift + F.width →
        (setField f F v).getLsbD i = v.testBit (i - F.shift))
    ∧ (∀ i, i < F.shift ∨ F.shift + F.width ≤ i → (setField f F v).getLsbD i = f.getLsbD i)

/-- Writing back what was read changes nothing, and a field holds the low bits of what was written (R123 d). -/
def Obligations.SetFieldThenGetFieldRoundTrips : Prop :=
  ∀ (f : Frame) (F : Field) (v : Nat), F.shift + F.width ≤ 48 →
    setField f F (getField f F) = f ∧ getField (setField f F v) F = v % 2 ^ F.width

/-- Checksum, the whole of R15: bytes 1..5 modulo 256; independent of bits 0..7; the same when each step wraps. -/
def Obligations.ChecksumSumsBytesOneToFive : Prop :=
  ∀ f : Frame,
    checksum f = (f.toNat / 2 ^ 8 % 256 + f.toNat / 2 ^ 16 % 256 + f.toNat / 2 ^ 24 % 256
      + f.toNat / 2 ^ 32 % 256 + f.toNat / 2 ^ 40 % 256) % 256
    ∧ (∀ g : Frame, (∀ i, 8 ≤ i → f.getLsbD i = g.getLsbD i) → checksum f = checksum g)
    ∧ checksum f = (byte f 1 + byte f 2 + byte f 3 + byte f 4 + byte f 5).toNat

/-- Clamp, the whole of R16. -/
def Obligations.ClampSaturatesToSeventeenAndThirty : Prop :=
  ∀ t : Int,
    (t < 17 → clamp t = 17) ∧ (30 < t → clamp t = 30) ∧ (17 ≤ t → t ≤ 30 → clamp t = t)
    ∧ 17 ≤ clamp t ∧ clamp t ≤ 30

/-- The offset-encoded target is 1..14; four bits lose nothing; with W_TEMP = 3 the values for 24 to 30 degrees wrap to
0..6 (R72, R101). -/
def Obligations.OffsetTemperatureWrapsInThreeBits : Prop :=
  ∀ t : Int,
    (offsetTemp t : Int) = clamp t - 17 + 1
    ∧ 1 ≤ offsetTemp t ∧ offsetTemp t ≤ 14
    ∧ (∀ w, 4 ≤ w → offsetTemp t % 2 ^ w = offsetTemp t)
    ∧ (24 ≤ t → t ≤ 30 → ((offsetTemp t % 2 ^ 3 : Nat) : Int) = t - 24)
    ∧ offsetTemp 24 = 8

/-- The tolerance test is `|a - e| <= TOL(e)`, both bounds inclusive, and a constant matches itself (R17; the inclusive
bounds are the spec's decision D13, log entry 9). -/
def Obligations.MatchIsWithinTheWindow : Prop :=
  ∀ (c : Cfg) (a e : Nat),
    (c.accepts a e = true ↔ ((a : Int) - (e : Int)).natAbs ≤ c.tol e) ∧ c.accepts e e = true

/-! ### DEC -/

/-- DEC, the whole of R121: word, every output, corner cases, example. -/
def Obligations.DecExtractsEveryFieldAndComparesTheChecksum : Prop :=
  encode .dec = 0x1000#16
  ∧ (∀ s : State,
      let f := s.fin
      let c := Config.cfg
      exec .dec s = .next { s with
        ports :=
          { outcome := some (if checksum f = getField f cks then .ok else .checksumMismatch)
            info := some 0#7
            fields := some
              { power := getField f c.power, mode := getField f c.mode,
                autofan := getField f c.autofan, fan := getField f c.fan, temp := getField f c.temp,
                count := getField f c.count, checksum := f.toNat % 256 }
            checksumValid := some (decide (checksum f = f.toNat % 256))
            diagHi := some (BitVec.ofNat 32 (f.toNat / 2 ^ 32))
            diagLo := some (BitVec.ofNat 32 (f.toNat % 2 ^ 32)) } })
  ∧ (∀ c : Cfg, extractFields c 0#48 = ⟨0, 0, 0, 0, 0, 0, 0⟩)
  ∧ checksumValid 0#48 = true
  ∧ checksum 0xFFFFFFFFFFFF#48 = 0xFB ∧ checksumValid 0xFFFFFFFFFFFF#48 = false
  ∧ (∀ (f : Frame) (F : Field) (j : Nat), j < F.width →
      (getField f F).testBit j = f.getLsbD (F.shift + j))
  ∧ decPorts Config.ref 0x5A90080801FB#48 =
      { outcome := some .ok, info := some 0#7, fields := some ⟨1, 1, 0, 0x08, 8, 1, 0xFB⟩,
        checksumValid := some true, diagHi := some 0x00005A90#32, diagLo := some 0x080801FB#32 }

/-- The two diagnostic words: the high one is 16 bits with zeros above, and together they are the frame (R122). -/
def Obligations.DiagnosticWordsRejoinToTheFrame : Prop :=
  ∀ f : Frame,
    (diagHi f).extractLsb' 0 16 ++ diagLo f = f ∧ (diagHi f).extractLsb' 16 16 = 0#16

/-- DEC of the frame that an ENC returned: checksum-valid with outcome OK, and every field holds what that ENC wrote, or
where the control mode is Off what SHADOW held before (R123 b, c, d; the control mode is R91's, D6, log entry 2). -/
def Obligations.DecReturnsTheFieldsThatEncWrote : Prop :=
  ∀ (i : Instr) (m : Mode) (t : Int) (s : State), intentOf i = some m → operandOf i = some t →
    ∃ (u v : State) (g : Frame) (fs : Fields),
      exec i s = .next u ∧ u.ports.fout = some g ∧ exec .dec { u with fin := g } = .next v
      ∧ v.ports.outcome = some .ok ∧ v.ports.checksumValid = some true ∧ v.ports.fields = some fs
      ∧ fs.power = (if m = .off then 0 else 1)
      ∧ fs.temp = tempValue Config.cfg (controlMode m s.lastMode) t % 2 ^ Config.cfg.wTemp
      ∧ fs.count = (getField s.shadow Config.cfg.count + 1) % 2 ^ Config.cfg.wCount
      ∧ fs.checksum = checksum g
      ∧ (controlMode m s.lastMode = .off →
          fs.fan = getField s.shadow Config.cfg.fan
          ∧ fs.autofan = getField s.shadow Config.cfg.autofan
          ∧ fs.mode = getField s.shadow Config.cfg.mode)
      ∧ (∀ r : ModeRow, modeTable Config.cfg (controlMode m s.lastMode) = some r →
          fs.fan = r.fan ∧ fs.autofan = r.autofan ∧ fs.mode = r.mode)

/-- Changing any one of the 48 bits of a checksum-valid frame makes it invalid (R123 e). -/
def Obligations.AnySingleBitFlipIsDetected : Prop :=
  ∀ (f : Frame) (i : Nat), i < 48 → checksumValid f = true →
    checksumValid (f ^^^ (1#48 <<< i)) = false

/-! ### TXP -/

/-- TXP, the whole of R131: word, the 50 pairs by index, the three parameters, corner cases, example. -/
def Obligations.TxpSendsFiftyPairsMostSignificantBitFirst : Prop :=
  encode .txp = 0x2000#16
  ∧ (∀ s : State, ∃ ps : List Pair,
      exec .txp s = .next { s with
        ports :=
          { outcome := some .ok, info := some 0#7, pout := some ps, carrierHz := some 38000,
            repeatCount := some 3, gapUs := some 130000 } }
      ∧ ps.length = 50
      ∧ ps[0]? = some ⟨Config.cfg.tHdrMark, Config.cfg.tHdrSpace⟩
      ∧ (∀ k, k < 48 → ps[1 + k]? = some
          ⟨Config.cfg.tBitMark,
            if s.fin.getLsbD (47 - k) then Config.cfg.tOneSpace else Config.cfg.tZeroSpace⟩)
      ∧ ps[49]? = some ⟨Config.cfg.tFtrMark, Config.cfg.tFtrSpace⟩)
  ∧ (∀ (c : Cfg) (k : Nat), k < 48 →
      (toPulses c 0#48)[1 + k]? = some ⟨c.tBitMark, c.tZeroSpace⟩
      ∧ (toPulses c 0xFFFFFFFFFFFF#48)[1 + k]? = some ⟨c.tBitMark, c.tOneSpace⟩)
  ∧ (toPulses Config.ref 0x5A90080801FB#48)[0]? = some ⟨8000, 4000⟩
  ∧ (((toPulses Config.ref 0x5A90080801FB#48).drop 1).take 8).map Pair.space
      = [500, 1500, 500, 1500, 1500, 500, 1500, 500]
  ∧ (toPulses Config.ref 0x5A90080801FB#48)[48]? = some ⟨500, 1500⟩
  ∧ (toPulses Config.ref 0x5A90080801FB#48)[49]? = some ⟨500, 130000⟩

/-- The durations of one sequence add up to `Len(f)` (R133). -/
def Obligations.SequenceDurationsAddUpToLen : Prop :=
  ∀ (c : Cfg) (f : Frame), (flat (toPulses c f)).sum = sequenceLength c f

/-- On the air, under the assumption the spec names about the sink: three replays of one sequence, and the sink's gap
twice if and only if it adds one (R134; D16, log entry 11). -/
def Obligations.ThreeReplaysOnTheAir : Prop :=
  ∀ (c : Cfg) (f : Frame),
    let once := onAirOnce (toPulses c f)
    let air := onAir c (toPulses c f) 130000 3
    (c.sinkAddsGap = false → air = once ++ once ++ once)
    ∧ (c.sinkAddsGap = true →
        air = once ++ [⟨false, 130000⟩] ++ once ++ [⟨false, 130000⟩] ++ once)
    ∧ (air.map Stretch.length).sum
        = 3 * sequenceLength c f + (if c.sinkAddsGap then 2 * 130000 else 0)

/-! ### RXP -/

/-- RXP makes the checks in index order: the first that fails is reported with its index; when none of the 99 fails the
frame is recovered, slot `k` giving bit `47 - k` (R141, R142, R143, R145, R168). The split of "no match" into six and the
treatment of a short list are the spec's decisions D15 and D17 (log entries 8, 12). -/
def Obligations.RxpReportsTheFirstFailureOrTheFrame : Prop :=
  ∀ s : State,
    (∀ (i : Nat) (why : NoMatch), i ≤ 98 → (∀ j, j < i → checkAt Config.cfg s.pin j = none) →
      checkAt Config.cfg s.pin i = some why →
        exec .rxp s = .next { s with
          ports :=
            { outcome := some (.noMatch why), info := some (BitVec.ofNat 7 i),
              matched := some false } })
    ∧ ((∀ i, i ≤ 98 → checkAt Config.cfg s.pin i = none) →
        ∃ f : Frame,
          exec .rxp s = .next { s with
            ports :=
              { outcome := some .ok, info := some 0#7, fout := some f, matched := some true } }
          ∧ ∀ k, k < 48 →
              f.getLsbD (47 - k)
                = Config.cfg.accepts ((s.pin[3 + 2 * k]?).getD 0) Config.cfg.tOneSpace)

/-- RXP completes on every list: with no hypothesis at all it answers a next state with `matched` on its port and nothing
but the result ports changed (R140, R163). -/
def Obligations.RxpAlwaysReturnsAResult : Prop :=
  ∀ s : State, ∃ (p : ResultPorts) (b : Bool),
    exec .rxp s = .next { s with ports := p } ∧ p.matched = some b ∧ p.fout.isSome = b

/-- The durations from index 99 on are never read: the footer space may be anything, or missing, and what follows is
ignored (R144). -/
def Obligations.RxpNeverReadsBeyondTheFooterMark : Prop :=
  ∀ (s : State) (d : List Nat), d.take 99 = s.pin.take 99 →
    ∃ p : ResultPorts, exec .rxp s = .next { s with ports := p }
      ∧ exec .rxp { s with pin := d } = .next { s with pin := d, ports := p }

/-- The round trip, under every well-formed configuration and for every frame: any list whose first 99 durations are each
within the window of what TXP emits is received as that frame (R147). -/
def Obligations.ReceivingWhatWasSentRecoversTheFrame : Prop :=
  ∀ (c : Cfg), c.WF → ∀ (f : Frame) (d : List Nat), 99 ≤ d.length →
    (∀ i a e, i < 99 → d[i]? = some a → (flat (toPulses c f))[i]? = some e → c.accepts a e = true) →
      fromPulses c d = .ok f

/-! ### The composites -/

/-- XMIT.m t completes with ENC's registers and TXP's results for the new SHADOW (R155). That `fin` holds the frame and
that `cmd`, `pin` and `pending` stand is the model's choice (log entry 14), and so is that `fout` holds nothing after
(log entry 16). -/
def Obligations.XmitIsEncThenTxpOfItsFrame : Prop :=
  ∀ (m : Mode) (t : Int) (s : State),
    let g := encodeFrame Config.cfg m t s.shadow s.lastMode
    xmit m t s = .next { s with
      shadow := g, lastMode := nextLastMode m s.lastMode, fin := g, ports := txpPorts Config.cfg g }

/-- A host that issues the two commands of XMIT in turn gets the same registers and the same results (R78, R155). That no
result of ENC is left on a port after XMIT is the model's choice (log entry 16). -/
def Obligations.XmitIsTheTwoCommandsInTurn : Prop :=
  ∀ (m : Mode) (t : Int) (s : State) (f : Frame) (l l' : List Nat),
    Temp.ok t = true → ∃ u v w : State, ∃ g : Frame,
      step { s with pending := [.command (encWord m t) f l] } = .next u
      ∧ u.ports.fout = some g
      ∧ step { u with pending := [.command 0x2000#16 g l'] } = .next v
      ∧ xmit m t s = .next w
      ∧ v.shadow = w.shadow ∧ v.lastMode = w.lastMode ∧ v.ports = w.ports

/-- RECV d completes: on a match `matched` and DEC's results for the frame, otherwise RXP's outcome and index; no register
changes (R156). What the input ports hold, and that `fout` holds nothing after a match, is the model's choice (log entries
14, 16). -/
def Obligations.RecvIsRxpThenDecOnAMatch : Prop :=
  ∀ (d : List Nat) (s : State),
    (∀ f : Frame, fromPulses Config.cfg d = .ok f →
      recv d s = .next { s with
        pin := d, fin := f, ports := { decPorts Config.cfg f with matched := some true } })
    ∧ (∀ e : Failure, fromPulses Config.cfg d = .error e →
      recv d s = .next { s with
        pin := d,
        ports :=
          { outcome := some (.noMatch e.why), info := some (BitVec.ofNat 7 e.index),
            matched := some false } })

/-- RECV of what XMIT sent matches, is checksum-valid, returns the fields that DEC returns for the new SHADOW, and changes
no register (R157). -/
def Obligations.RecvOfXmitReturnsTheNewShadow : Prop :=
  ∀ (m : Mode) (t : Int) (s : State), ∃ (u v : State) (ps : List Pair),
    xmit m t s = .next u ∧ u.ports.pout = some ps
    ∧ fromPulses Config.cfg (flat ps) = .ok u.shadow
    ∧ recv (flat ps) u = .next v
    ∧ v.ports.matched = some true ∧ v.ports.checksumValid = some true ∧ v.ports.outcome = some .ok
    ∧ v.ports.fields = some (extractFields Config.cfg u.shadow)
    ∧ v.shadow = u.shadow ∧ v.lastMode = u.lastMode

/-! ### Whole-machine rules -/

/-- An operation that ends with any outcome other than OK has changed no register (R169). -/
def Obligations.AnOutcomeOtherThanOkChangesNoRegister : Prop :=
  ∀ (s u : State) (w : CmdWord) (f : Frame) (d : List Nat) (rest : List Request),
    s.pending = .command w f d :: rest → step s = .next u → u.ports.outcome ≠ some .ok →
      u.shadow = s.shadow ∧ u.lastMode = s.lastMode

/-- Only the five ENC commands and the reset input write SHADOW or LASTMODE, over all steps (R21, R24, R25). -/
def Obligations.OnlyEncAndResetWriteTheRegisters : Prop :=
  ∀ s u : State, step s = .next u → u.shadow ≠ s.shadow ∨ u.lastMode ≠ s.lastMode →
    (∃ rest, s.pending = .reset :: rest)
    ∨ (∃ w f d rest i, s.pending = .command w f d :: rest ∧ decode w = .ok i ∧ isEnc i = true)

/-- DEC, TXP, RXP and a reserved word reveal nothing of SHADOW and LASTMODE: from two states that differ in them the
results are the same (R25, R47). -/
def Obligations.OnlyEncRevealsTheRegisters : Prop :=
  ∀ (s s' u u' : State) (w : CmdWord) (f : Frame) (d : List Nat) (rest rest' : List Request),
    s.pending = .command w f d :: rest → s'.pending = .command w f d :: rest' →
    (∀ i, decode w = .ok i → isEnc i = false) →
    step s = .next u → step s' = .next u' → u.ports = u'.ports

/-- The numbers of the outcome codes (R161; the numbering is the spec's decision D17, log entry 8). -/
def Obligations.OutcomeCodesHaveTheirNumbers : Prop :=
  OutcomeCode.ok.code = 0#4 ∧ (OutcomeCode.noMatch .headerMark).code = 1#4
  ∧ (OutcomeCode.noMatch .headerSpace).code = 2#4 ∧ (OutcomeCode.noMatch .bitMark).code = 3#4
  ∧ (OutcomeCode.noMatch .bitSpace).code = 4#4 ∧ (OutcomeCode.noMatch .footerMark).code = 5#4
  ∧ (OutcomeCode.noMatch .short).code = 6#4 ∧ OutcomeCode.checksumMismatch.code = 7#4
  ∧ OutcomeCode.illegalCommand.code = 8#4

/-- Each line of a program does, from any state, what its command does (R77; the syntax is the spec's own, D22, log entry
14). The RESET line does what the reset input does (R31, R180): LASTMODE Off there is the spec's own choice (D11), and that
no result port holds a value is the model's reading of R31 (log entry 3). -/
def Obligations.AssembledLinePerformsItsCommand : Prop :=
  ∀ s : State,
    (∀ (m : Mode) (t : Int), Temp.ok t = true → ∃ u : State,
      step { s with pending := [assembleLine (.enc m t)] } = .next u
      ∧ u.shadow = encodeFrame Config.cfg m t s.shadow s.lastMode
      ∧ u.lastMode = nextLastMode m s.lastMode ∧ u.ports = encPorts u.shadow)
    ∧ (∀ f : Frame, ∃ u : State, step { s with pending := [assembleLine (.dec f)] } = .next u
      ∧ u.shadow = s.shadow ∧ u.lastMode = s.lastMode ∧ u.ports = decPorts Config.cfg f)
    ∧ (∀ f : Frame, ∃ u : State, step { s with pending := [assembleLine (.txp f)] } = .next u
      ∧ u.shadow = s.shadow ∧ u.lastMode = s.lastMode ∧ u.ports = txpPorts Config.cfg f)
    ∧ (∀ d : List Nat, ∃ u : State, step { s with pending := [assembleLine (.rxp d)] } = .next u
      ∧ u.shadow = s.shadow ∧ u.lastMode = s.lastMode ∧ u.ports = rxpPorts Config.cfg d)
    ∧ (∃ u : State, step { s with pending := [assembleLine .reset] } = .next u
      ∧ u.shadow = Config.cfg.frameReset ∧ u.lastMode = .off ∧ u.ports = {})

/-- A run returns one result for each request, and a run of two lists is the one run after the other: each command sees
exactly the state the one before it left (R48, R189). -/
def Obligations.RunsAreInOrderAndComplete : Prop :=
  ∀ (a b : List Request) (s : State),
    (run a s).2.length = a.length
    ∧ run (a ++ b) s = ((run b (run a s).1).1, (run a s).2 ++ (run b (run a s).1).2)
end

