-- ==== Sys2Proof/Laws/FrameBits.lean ====
section
/-! SUPPORT. The frame primitives bit by bit: what one field write does to every bit, what the checksum reads. -/

namespace Sys2Proof.Machine

theorem testBit_getField (f : Frame) (F : Field) (j : Nat) :
    (getField f F).testBit j = (decide (j < F.width) && f.getLsbD (F.shift + j)) := by
  simp [getField, Nat.testBit_mod_two_pow, Nat.testBit_shiftRight, BitVec.testBit_toNat]

theorem getField_lt (f : Frame) (F : Field) : getField f F < 2 ^ F.width :=
  Nat.mod_lt _ (Nat.two_pow_pos _)

/-- A frame, as a number, is what lies above a field, the field, and what lies below it. -/
theorem toNat_split (f : Frame) (F : Field) :
    f.toNat = 2 ^ F.shift * (2 ^ F.width * (f.toNat / 2 ^ F.shift / 2 ^ F.width) + getField f F)
      + f.toNat % 2 ^ F.shift := by
  rw [getField, Nat.shiftRight_eq_div_pow, Nat.div_add_mod, Nat.div_add_mod]

/-- The number that `setField` writes, with the field's bits replaced. -/
theorem setField_arg (f : Frame) (F : Field) (v : Nat) :
    f.toNat - getField f F * 2 ^ F.shift + v % 2 ^ F.width * 2 ^ F.shift
      = 2 ^ F.shift * (2 ^ F.width * (f.toNat / 2 ^ F.shift / 2 ^ F.width) + v % 2 ^ F.width)
        + f.toNat % 2 ^ F.shift := by
  have h := toNat_split f F
  generalize f.toNat / 2 ^ F.shift / 2 ^ F.width = hi at h ⊢
  generalize getField f F = g at h ⊢
  rw [Nat.mul_add] at h ⊢
  rw [Nat.mul_comm g, Nat.mul_comm (v % _)]
  omega

/-- What a field write does to every bit of the frame. -/
theorem getLsbD_setField (f : Frame) (F : Field) (v i : Nat) (h : F.shift + F.width ≤ 48) :
    (setField f F v).getLsbD i
      = if F.Covers i then v.testBit (i - F.shift) else f.getLsbD i := by
  rw [setField, setField_arg, BitVec.getLsbD_ofNat, Nat.testBit_two_pow_mul_add _ (Nat.mod_lt _ (Nat.two_pow_pos _)),
    Nat.testBit_two_pow_mul_add _ (Nat.mod_lt _ (Nat.two_pow_pos _))]
  simp only [Nat.testBit_mod_two_pow, Nat.testBit_div_two_pow, BitVec.testBit_toNat]
  unfold Field.Covers
  by_cases h1 : i < F.shift
  · have : ¬ F.shift ≤ i := by omega
    have : i < 48 := by omega
    simp [*]
  · by_cases h2 : i - F.shift < F.width
    · have : F.shift ≤ i ∧ i < F.shift + F.width := by omega
      have : i < 48 := by omega
      simp [*]
    · have h3 : ¬(F.shift ≤ i ∧ i < F.shift + F.width) := by omega
      have h4 : F.shift + (F.width + (i - F.shift - F.width)) = i := by omega
      simp only [h1, h2, h3, if_false]
      by_cases h5 : i < 48
      · simp [h5, show i - F.shift - F.width + F.width + F.shift = i by omega]
      · simp [h5, BitVec.getLsbD_of_ge f i (by omega)]

/-- A write to a field leaves every bit outside it as it was. -/
theorem getLsbD_setField_outside (f : Frame) (F : Field) (v i : Nat) (h : F.shift + F.width ≤ 48)
    (hi : ¬F.Covers i) : (setField f F v).getLsbD i = f.getLsbD i := by
  rw [getLsbD_setField f F v i h, if_neg hi]

/-- Two frames that agree on a field's bits hold the same value in it. -/
theorem getField_congr {f g : Frame} {F : Field}
    (h : ∀ i, F.Covers i → f.getLsbD i = g.getLsbD i) : getField f F = getField g F := by
  apply Nat.eq_of_testBit_eq
  intro j
  rw [testBit_getField, testBit_getField]
  by_cases hj : j < F.width
  · rw [h (F.shift + j) ⟨by omega, by omega⟩]
  · simp [hj]

/-- A write to one field leaves a disjoint field as it was. -/
theorem getField_setField_disjoint (f : Frame) (F G : Field) (v : Nat) (h : F.shift + F.width ≤ 48)
    (hd : F.Disjoint G) : getField (setField f F v) G = getField f G := by
  refine getField_congr fun i hi => getLsbD_setField_outside f F v i h ?_
  unfold Field.Covers Field.Disjoint at *
  omega

/-- A field holds the low bits of what was written to it. -/
theorem getField_setField_self (f : Frame) (F : Field) (v : Nat) (h : F.shift + F.width ≤ 48) :
    getField (setField f F v) F = v % 2 ^ F.width := by
  apply Nat.eq_of_testBit_eq
  intro j
  rw [testBit_getField, getLsbD_setField f F v _ h, Nat.testBit_mod_two_pow]
  by_cases hj : j < F.width
  · rw [if_pos ⟨by omega, by omega⟩]
    simp
  · simp [hj]

/-- Two frames that agree on bits 8..47 have the same byte `k`, for `k` from 1 on. -/
theorem byte_congr {f g : Frame} (h : ∀ i, 8 ≤ i → f.getLsbD i = g.getLsbD i) (k : Nat) (hk : 1 ≤ k) :
    byte f k = byte g k := by
  apply BitVec.eq_of_getLsbD_eq
  intro i hi
  simp only [byte, BitVec.getLsbD_extractLsb']
  rw [h (8 * k + i) (by omega)]

/-- The checksum reads bits 8..47 alone (R15). -/
theorem checksum_congr {f g : Frame} (h : ∀ i, 8 ≤ i → f.getLsbD i = g.getLsbD i) :
    checksum f = checksum g := by
  simp only [checksum, byte_congr h 1 (by omega), byte_congr h 2 (by omega), byte_congr h 3 (by omega),
    byte_congr h 4 (by omega), byte_congr h 5 (by omega)]

theorem checksum_lt (f : Frame) : checksum f < 256 := Nat.mod_lt _ (by decide)

/-- Writing byte 0 does not change the checksum. -/
theorem checksum_setField_cks (f : Frame) (v : Nat) : checksum (setField f cks v) = checksum f := by
  refine checksum_congr fun i hi => getLsbD_setField_outside f cks v i (by decide) ?_
  unfold Field.Covers cks
  dsimp only
  omega

end Sys2Proof.Machine
end

