-- ==== Sys2Proof/Laws/State.lean ====
section
/-! SUPPORT. Each field of the state after each update, by `rfl`: no later proof unfolds a record update. -/

namespace Sys2Proof.Machine

@[simp] theorem drive_shadow (p : ResultPorts) (s : State) :
    (drive p s).shadow = s.shadow := rfl

@[simp] theorem drive_lastMode (p : ResultPorts) (s : State) :
    (drive p s).lastMode = s.lastMode := rfl

@[simp] theorem drive_cmd (p : ResultPorts) (s : State) :
    (drive p s).cmd = s.cmd := rfl

@[simp] theorem drive_fin (p : ResultPorts) (s : State) :
    (drive p s).fin = s.fin := rfl

@[simp] theorem drive_pin (p : ResultPorts) (s : State) :
    (drive p s).pin = s.pin := rfl

@[simp] theorem drive_ports (p : ResultPorts) (s : State) :
    (drive p s).ports = p := rfl

@[simp] theorem drive_pending (p : ResultPorts) (s : State) :
    (drive p s).pending = s.pending := rfl

@[simp] theorem refuseCommand_shadow (s : State) :
    (refuseCommand s).shadow = s.shadow := rfl

@[simp] theorem refuseCommand_lastMode (s : State) :
    (refuseCommand s).lastMode = s.lastMode := rfl

@[simp] theorem refuseCommand_cmd (s : State) :
    (refuseCommand s).cmd = s.cmd := rfl

@[simp] theorem refuseCommand_fin (s : State) :
    (refuseCommand s).fin = s.fin := rfl

@[simp] theorem refuseCommand_pin (s : State) :
    (refuseCommand s).pin = s.pin := rfl

@[simp] theorem refuseCommand_ports (s : State) :
    (refuseCommand s).ports = illegalPorts := rfl

@[simp] theorem refuseCommand_pending (s : State) :
    (refuseCommand s).pending = s.pending := rfl

@[simp] theorem present_shadow (w : CmdWord) (f : Frame) (d : List Nat) (rest : List Request) (s : State) :
    (present w f d rest s).shadow = s.shadow := rfl

@[simp] theorem present_lastMode (w : CmdWord) (f : Frame) (d : List Nat) (rest : List Request) (s : State) :
    (present w f d rest s).lastMode = s.lastMode := rfl

@[simp] theorem present_cmd (w : CmdWord) (f : Frame) (d : List Nat) (rest : List Request) (s : State) :
    (present w f d rest s).cmd = w := rfl

@[simp] theorem present_fin (w : CmdWord) (f : Frame) (d : List Nat) (rest : List Request) (s : State) :
    (present w f d rest s).fin = f := rfl

@[simp] theorem present_pin (w : CmdWord) (f : Frame) (d : List Nat) (rest : List Request) (s : State) :
    (present w f d rest s).pin = d := rfl

@[simp] theorem present_ports (w : CmdWord) (f : Frame) (d : List Nat) (rest : List Request) (s : State) :
    (present w f d rest s).ports = s.ports := rfl

@[simp] theorem present_pending (w : CmdWord) (f : Frame) (d : List Nat) (rest : List Request) (s : State) :
    (present w f d rest s).pending = rest := rfl

@[simp] theorem resetBlock_shadow (cfg : Cfg) (s : State) :
    (resetBlock cfg s).shadow = cfg.frameReset := rfl

@[simp] theorem resetBlock_lastMode (cfg : Cfg) (s : State) :
    (resetBlock cfg s).lastMode = .off := rfl

@[simp] theorem resetBlock_cmd (cfg : Cfg) (s : State) :
    (resetBlock cfg s).cmd = s.cmd := rfl

@[simp] theorem resetBlock_fin (cfg : Cfg) (s : State) :
    (resetBlock cfg s).fin = s.fin := rfl

@[simp] theorem resetBlock_pin (cfg : Cfg) (s : State) :
    (resetBlock cfg s).pin = s.pin := rfl

@[simp] theorem resetBlock_ports (cfg : Cfg) (s : State) :
    (resetBlock cfg s).ports = {} := rfl

@[simp] theorem resetBlock_pending (cfg : Cfg) (s : State) :
    (resetBlock cfg s).pending = s.pending := rfl

@[simp] theorem placeCommand_shadow (w : CmdWord) (s : State) :
    (placeCommand w s).shadow = s.shadow := rfl

@[simp] theorem placeCommand_lastMode (w : CmdWord) (s : State) :
    (placeCommand w s).lastMode = s.lastMode := rfl

@[simp] theorem placeCommand_cmd (w : CmdWord) (s : State) :
    (placeCommand w s).cmd = s.cmd := rfl

@[simp] theorem placeCommand_fin (w : CmdWord) (s : State) :
    (placeCommand w s).fin = s.fin := rfl

@[simp] theorem placeCommand_pin (w : CmdWord) (s : State) :
    (placeCommand w s).pin = s.pin := rfl

@[simp] theorem placeCommand_ports (w : CmdWord) (s : State) :
    (placeCommand w s).ports = s.ports := rfl

@[simp] theorem placeCommand_pending (w : CmdWord) (s : State) :
    (placeCommand w s).pending = .command w s.fin s.pin :: s.pending := rfl

@[simp] theorem enc_shadow (cfg : Cfg) (m : Mode) (t : Int) (s : State) :
    (enc cfg m t s).shadow = encodeFrame cfg m t s.shadow s.lastMode := rfl

@[simp] theorem enc_lastMode (cfg : Cfg) (m : Mode) (t : Int) (s : State) :
    (enc cfg m t s).lastMode = nextLastMode m s.lastMode := rfl

@[simp] theorem enc_cmd (cfg : Cfg) (m : Mode) (t : Int) (s : State) :
    (enc cfg m t s).cmd = s.cmd := rfl

@[simp] theorem enc_fin (cfg : Cfg) (m : Mode) (t : Int) (s : State) :
    (enc cfg m t s).fin = s.fin := rfl

@[simp] theorem enc_pin (cfg : Cfg) (m : Mode) (t : Int) (s : State) :
    (enc cfg m t s).pin = s.pin := rfl

@[simp] theorem enc_ports (cfg : Cfg) (m : Mode) (t : Int) (s : State) :
    (enc cfg m t s).ports = encPorts (encodeFrame cfg m t s.shadow s.lastMode) := rfl

@[simp] theorem enc_pending (cfg : Cfg) (m : Mode) (t : Int) (s : State) :
    (enc cfg m t s).pending = s.pending := rfl

theorem reset_shadow : State.reset.shadow = Config.cfg.frameReset := rfl

theorem reset_lastMode : State.reset.lastMode = .off := rfl

theorem reset_ports : State.reset.ports = {} := rfl

theorem reset_pending : State.reset.pending = [] := rfl

end Sys2Proof.Machine
end

