-- ==== Sys2Proof/Laws/Codec.lean ====
section
/-! SUPPORT. What one ENC does to the frame: the bits it can change, and that the result is checksum-valid. -/

namespace Sys2Proof.Machine

/-- A field of the six is where WF1 puts it. -/
theorem field_bounds {c : Cfg} (h : c.WF) {F : Field} (hF : F ∈ c.namedFields) :
    8 ≤ F.shift ∧ F.shift + F.width ≤ 48 := h.wf1 F hF

theorem power_mem (c : Cfg) : c.power ∈ c.namedFields := by simp [Cfg.namedFields]
theorem mode_mem (c : Cfg) : c.mode ∈ c.namedFields := by simp [Cfg.namedFields]
theorem autofan_mem (c : Cfg) : c.autofan ∈ c.namedFields := by simp [Cfg.namedFields]
theorem fan_mem (c : Cfg) : c.fan ∈ c.namedFields := by simp [Cfg.namedFields]
theorem temp_mem (c : Cfg) : c.temp ∈ c.namedFields := by simp [Cfg.namedFields]
theorem count_mem (c : Cfg) : c.count ∈ c.namedFields := by simp [Cfg.namedFields]

/-- Writing one of the six fields leaves an unnamed bit as it was. -/
theorem getLsbD_setField_unnamed {c : Cfg} (h : c.WF) {F : Field} (hF : F ∈ c.namedFields) (f : Frame)
    (v : Nat) {i : Nat} (hi : c.Unnamed i) : (setField f F v).getLsbD i = f.getLsbD i :=
  getLsbD_setField_outside f F v i (h.wf1 F hF).2 (hi.2.2 F hF)

/-- Writing byte 0 leaves every bit from 8 on as it was. -/
theorem getLsbD_stampChecksum (f : Frame) {i : Nat} (hi : 8 ≤ i) :
    (stampChecksum f).getLsbD i = f.getLsbD i := by
  refine getLsbD_setField_outside f cks _ i (by decide) ?_
  simp only [Field.Covers, cks]
  omega

/-- A field above byte 0 is not changed by the checksum. -/
theorem getField_stampChecksum {F : Field} (h : 8 ≤ F.shift) (f : Frame) :
    getField (stampChecksum f) F = getField f F :=
  getField_congr fun _ hi => getLsbD_stampChecksum f (by have := hi.1; omega)

theorem getField_cks_stampChecksum (f : Frame) : getField (stampChecksum f) cks = checksum f := by
  rw [stampChecksum, getField_setField_self f cks _ (by decide)]
  exact Nat.mod_eq_of_lt (checksum_lt f)

/-- A stamped frame is checksum-valid (R62). -/
theorem checksumValid_stampChecksum (f : Frame) : checksumValid (stampChecksum f) = true := by
  rw [checksumValid, getField_cks_stampChecksum, stampChecksum, checksum_setField_cks, beq_self_eq_true]

theorem getLsbD_writeModeRow_unnamed {c : Cfg} (h : c.WF) (row : Option ModeRow) (f : Frame) {i : Nat}
    (hi : c.Unnamed i) : (writeModeRow c row f).getLsbD i = f.getLsbD i := by
  cases row with
  | none => rfl
  | some r =>
    simp only [writeModeRow, getLsbD_setField_unnamed h (mode_mem c) _ _ hi,
      getLsbD_setField_unnamed h (autofan_mem c) _ _ hi, getLsbD_setField_unnamed h (fan_mem c) _ _ hi]

/-- ENC changes no unnamed bit. -/
theorem getLsbD_encodeFrame_unnamed {c : Cfg} (h : c.WF) (m : Mode) (t : Int) (shadow : Frame) (last : Mode)
    {i : Nat} (hi : c.Unnamed i) : (encodeFrame c m t shadow last).getLsbD i = shadow.getLsbD i := by
  simp only [encodeFrame, stepCount, getLsbD_stampChecksum _ hi.1, getLsbD_setField_unnamed h (count_mem c) _ _ hi,
    getLsbD_setField_unnamed h (temp_mem c) _ _ hi, getLsbD_writeModeRow_unnamed h _ _ hi,
    getLsbD_setField_unnamed h (power_mem c) _ _ hi]

/-- The mode table's row does not touch a field disjoint from FAN, AUTOFAN and MODE. -/
theorem getField_writeModeRow_disjoint {c : Cfg} (h : c.WF) (row : Option ModeRow) (f : Frame) (G : Field)
    (h1 : c.fan.Disjoint G) (h2 : c.autofan.Disjoint G) (h3 : c.mode.Disjoint G) :
    getField (writeModeRow c row f) G = getField f G := by
  cases row with
  | none => rfl
  | some r =>
    simp only [writeModeRow, getField_setField_disjoint _ _ _ _ (h.wf1 _ (mode_mem c)).2 h3,
      getField_setField_disjoint _ _ _ _ (h.wf1 _ (autofan_mem c)).2 h2,
      getField_setField_disjoint _ _ _ _ (h.wf1 _ (fan_mem c)).2 h1]

/-- WF2, pair by pair, in the order the field writes need. -/
theorem disjoint_pairs {c : Cfg} (h : c.WF) :
    c.power.Disjoint c.mode ∧ c.power.Disjoint c.autofan ∧ c.power.Disjoint c.fan ∧ c.power.Disjoint c.temp
    ∧ c.power.Disjoint c.count ∧ c.mode.Disjoint c.autofan ∧ c.mode.Disjoint c.fan ∧ c.mode.Disjoint c.temp
    ∧ c.mode.Disjoint c.count ∧ c.autofan.Disjoint c.fan ∧ c.autofan.Disjoint c.temp
    ∧ c.autofan.Disjoint c.count ∧ c.fan.Disjoint c.temp ∧ c.fan.Disjoint c.count
    ∧ c.temp.Disjoint c.count := by
  have := h.wf2
  simp only [Cfg.namedFields, List.pairwise_cons, List.mem_cons, List.not_mem_nil, or_false, forall_eq_or_imp,
    forall_eq, List.Pairwise.nil, and_true, false_imp_iff, implies_true] at this
  obtain ⟨⟨a1, a2, a3, a4, a5⟩, ⟨b1, b2, b3, b4⟩, ⟨c1, c2, c3⟩, ⟨d1, d2⟩, e1⟩ := this
  exact ⟨a1, a2, a3, a4, a5, b1, b2, b3, b4, c1, c2, c3, d1, d2, e1⟩

theorem disjoint_swap {F G : Field} (h : F.Disjoint G) : G.Disjoint F := Or.symm h

end Sys2Proof.Machine
end

