-- ==== Sys2Proof/Laws/Composite.lean ====
section
/-! SUPPORT. Each result port of a RECV that matched, by `rfl`, and how RXP's `matched` and `fout` go together. -/

namespace Sys2Proof.Machine

variable (r p : ResultPorts)

@[simp] theorem recvPorts_matched : (recvPorts r p).matched = r.matched := rfl
@[simp] theorem recvPorts_outcome : (recvPorts r p).outcome = p.outcome := rfl
@[simp] theorem recvPorts_info : (recvPorts r p).info = p.info := rfl
@[simp] theorem recvPorts_fout : (recvPorts r p).fout = p.fout := rfl
@[simp] theorem recvPorts_fields : (recvPorts r p).fields = p.fields := rfl
@[simp] theorem recvPorts_checksumValid : (recvPorts r p).checksumValid = p.checksumValid := rfl
@[simp] theorem recvPorts_diagHi : (recvPorts r p).diagHi = p.diagHi := rfl
@[simp] theorem recvPorts_diagLo : (recvPorts r p).diagLo = p.diagLo := rfl
@[simp] theorem recvPorts_pout : (recvPorts r p).pout = p.pout := rfl
@[simp] theorem recvPorts_carrierHz : (recvPorts r p).carrierHz = p.carrierHz := rfl
@[simp] theorem recvPorts_repeatCount : (recvPorts r p).repeatCount = p.repeatCount := rfl
@[simp] theorem recvPorts_gapUs : (recvPorts r p).gapUs = p.gapUs := rfl

/-- RXP returns a frame exactly when it matches (R140), so RECV may look at either. -/
theorem rxpPorts_fout_isSome (c : Cfg) (d : List Nat) :
    (rxpPorts c d).matched = some (rxpPorts c d).fout.isSome := by
  unfold rxpPorts
  split <;> rfl

end Sys2Proof.Machine
end

