-- ==== Sys2Proof/Laws/PerInstr.lean ====
section
/-! SUPPORT. Per command: its word lies in its own row of the opcode table (spec/30_encoding.md rule R73). -/

namespace Sys2Proof.Laws.TableRow

/-- The word of the command matches the `match` and `mask` of its row. -/
def Statement (i : Instr) : Prop :=
  encode i &&& tableMask i = tableMatch i

/-- An ENC word under the mask 0xFF00 is its mode code in bits 10..8. -/
theorem encWord_masked (m : Mode) (t : Int) :
    encWord m t &&& 0xFF00#16 = 0#5 ++ m.code ++ 0#8 := by
  apply BitVec.eq_of_getLsbD_eq
  intro j hj
  simp only [encWord, BitVec.getLsbD_and, BitVec.getLsbD_append]
  by_cases h : j < 8
  · have : (0xFF00#16).getLsbD j = false := by
      revert h; revert j; decide
    simp [h, this]
  · have h2 : (0xFF00#16).getLsbD j = true := by
      revert h; revert j; decide
    have : (0#4 ++ 0#1).getLsbD (j - 8 - 3) = false := by simp
    simp [h, h2]

theorem encOff (t : Int) : Statement (.encOff t) := encWord_masked .off t

theorem encCool (t : Int) : Statement (.encCool t) := encWord_masked .cool t

theorem encAuto (t : Int) : Statement (.encAuto t) := encWord_masked .auto t

theorem encDehum (t : Int) : Statement (.encDehum t) := encWord_masked .dehumidify t

theorem encClean (t : Int) : Statement (.encClean t) := encWord_masked .clean t

theorem dec : Statement .dec := by unfold Statement; decide

theorem txp : Statement .txp := by unfold Statement; decide

theorem rxp : Statement .rxp := by unfold Statement; decide

end Sys2Proof.Laws.TableRow
end

