-- ==== Sys2Proof/Laws/Pulses.lean ====
section
/-! SUPPORT. The pulse sequence by index, and what each check of RXP can answer. -/

namespace Sys2Proof.Machine

theorem toPulses_length (c : Cfg) (f : Frame) : (toPulses c f).length = 50 := by
  simp [toPulses, nSlots]

theorem toPulses_slot (c : Cfg) (f : Frame) {k : Nat} (hk : k < 48) :
    (toPulses c f)[1 + k]? = some (slotPair c (f.getLsbD (47 - k))) := by
  rw [toPulses, Nat.add_comm, List.getElem?_cons_succ, List.getElem?_append_left (by simpa [nSlots] using hk)]
  simp [nSlots, hk]

theorem toPulses_footer (c : Cfg) (f : Frame) : (toPulses c f)[49]? = some (footerPair c) := by
  rw [toPulses, show (49 : Nat) = 48 + 1 from rfl, List.getElem?_cons_succ,
    List.getElem?_append_right (by simp [nSlots])]
  simp [nSlots]

theorem flat_mark (ps : List Pair) (p : Nat) : (flat ps)[2 * p]? = ps[p]?.map Pair.mark := by
  induction ps generalizing p with
  | nil => simp [flat]
  | cons a ps ih =>
    cases p with
    | zero => simp [flat]
    | succ p => simpa [flat, Nat.mul_add] using ih p

theorem flat_space (ps : List Pair) (p : Nat) : (flat ps)[2 * p + 1]? = ps[p]?.map Pair.space := by
  induction ps generalizing p with
  | nil => simp [flat]
  | cons a ps ih =>
    cases p with
    | zero => simp [flat]
    | succ p => simpa [flat, Nat.mul_add] using ih p

/-- The flat list by index (R41, R64): header, slot `k` at `2 + 2*k` and `3 + 2*k`, footer. -/
theorem sent_header (c : Cfg) (f : Frame) :
    (flat (toPulses c f))[0]? = some c.tHdrMark ∧ (flat (toPulses c f))[1]? = some c.tHdrSpace := ⟨rfl, rfl⟩

theorem sent_slot (c : Cfg) (f : Frame) {k : Nat} (hk : k < 48) :
    (flat (toPulses c f))[2 + 2 * k]? = some c.tBitMark
    ∧ (flat (toPulses c f))[3 + 2 * k]? = some (slotPair c (f.getLsbD (47 - k))).space := by
  have hm := flat_mark (toPulses c f) (1 + k)
  have hs := flat_space (toPulses c f) (1 + k)
  rw [toPulses_slot c f hk] at hm hs
  rw [show 2 + 2 * k = 2 * (1 + k) by omega, show 3 + 2 * k = 2 * (1 + k) + 1 by omega]
  exact ⟨hm, hs⟩

theorem sent_footer (c : Cfg) (f : Frame) :
    (flat (toPulses c f))[98]? = some c.tFtrMark ∧ (flat (toPulses c f))[99]? = some c.tFtrSpace := by
  have hm := flat_mark (toPulses c f) 49
  have hs := flat_space (toPulses c f) 49
  rw [toPulses_footer] at hm hs
  exact ⟨hm, hs⟩

theorem flat_length (ps : List Pair) : (flat ps).length = 2 * ps.length := by
  induction ps with
  | nil => rfl
  | cons p ps ih => simp only [flat, List.length_cons, ih]; omega

/-- A duration that is there and fits passes its check. -/
theorem needMatch_ok {c : Cfg} {d : List Nat} {i e a : Nat} {why : NoMatch} (h : d[i]? = some a)
    (ha : c.accepts a e = true) : needMatch c d i e why = .ok () := by
  simp [needMatch, h, ha]

/-- The loop over the slots from `k` on, when each slot's mark fits and its space is classified as `b`: the bits are
accumulated most significant first. -/
theorem rxSlots_step {c : Cfg} {d : List Nat} {n k f : Nat} {b : Bool}
    (hm : needMatch c d (2 + 2 * k) c.tBitMark .bitMark = .ok ())
    (hb : needBit c d (3 + 2 * k) = .ok b) :
    rxSlots c d (n + 1) k f = rxSlots c d n (k + 1) (2 * f + b.toNat) := by
  simp [rxSlots, hm, hb, bind, Except.bind]

end Sys2Proof.Machine
end

