-- ==== Sys2Proof/Laws/Step.lean ====
section
/-! SUPPORT. What one command and one step can do, said once. -/

namespace Sys2Proof.Machine

/-- A command is an ENC, or it drives the result ports and nothing else. -/
theorem exec_cases (i : Instr) (s : State) :
    (isEnc i = true ∧ ∃ m t, exec i s = .next (enc Config.cfg m t s))
    ∨ (isEnc i = false ∧
        (exec i s = .next (drive (decPorts Config.cfg s.fin) s)
        ∨ exec i s = .next (drive (txpPorts Config.cfg s.fin) s)
        ∨ exec i s = .next (drive (rxpPorts Config.cfg s.pin) s))) := by
  cases i with
  | encOff t => exact .inl ⟨rfl, .off, t, rfl⟩
  | encCool t => exact .inl ⟨rfl, .cool, t, rfl⟩
  | encAuto t => exact .inl ⟨rfl, .auto, t, rfl⟩
  | encDehum t => exact .inl ⟨rfl, .dehumidify, t, rfl⟩
  | encClean t => exact .inl ⟨rfl, .clean, t, rfl⟩
  | dec => exact .inr ⟨rfl, .inl rfl⟩
  | txp => exact .inr ⟨rfl, .inr (.inl rfl)⟩
  | rxp => exact .inr ⟨rfl, .inr (.inr rfl)⟩

/-- What a step that answers `u` has done: nothing, the reset, a refusal, or the command it decoded. -/
theorem step_cases {s u : State} (h : step s = .next u) :
    (s.pending = [] ∧ u = s)
    ∨ (∃ rest, s.pending = .reset :: rest ∧ u = resetBlock Config.cfg { s with pending := rest })
    ∨ (∃ w f d rest, s.pending = .command w f d :: rest ∧
        ((∃ r, decode w = .error r ∧ u = refuseCommand (present w f d rest s))
        ∨ (∃ i, decode w = .ok i ∧ exec i (present w f d rest s) = .next u))) := by
  unfold step at h
  split at h
  · exact .inl ⟨‹_›, by injection h with h; exact h.symm⟩
  · exact .inr (.inl ⟨_, ‹_›, by injection h with h; exact h.symm⟩)
  · refine .inr (.inr ⟨_, _, _, _, ‹_›, ?_⟩)
    unfold transact at h
    simp only [present_cmd] at h
    split at h
    · exact .inr ⟨_, ‹_›, h⟩
    · exact .inl ⟨_, ‹_›, by injection h with h; exact h.symm⟩

end Sys2Proof.Machine
end

