-- ==== Sys2Proof/Tests/Slice0.lean ====
section
/-! SUPPORT. The package's own tests: expected results are the vectors of spec/95_test_vectors.md (worked by hand from the
rules, on the synthetic configurations REF and REF2), and one witness for the hypotheses of each statement that has any. -/

namespace Sys2Proof.Tests

open Sys2Proof.Machine

/-! ### Well-formedness and decoding -/

/-- 128 and -129 are outside Temp (R11). -/
theorem test_wellFormed_refuses_out_of_range :
    (Instr.encOff 128).wellFormed = false ∧ (Instr.encCool (-129)).wellFormed = false
    ∧ (Instr.encAuto 200).wellFormed = false ∧ (Instr.encDehum (-200)).wellFormed = false
    ∧ (Instr.encClean 128).wellFormed = false := by decide

theorem test_wellFormed_takes_the_ends :
    (Instr.encOff 127).wellFormed = true ∧ (Instr.encCool (-128)).wellFormed = true
    ∧ Instr.dec.wellFormed = true := by decide

/-- 0000 0 000 00011000: op 0, z 0, mode 0, temp 24 (R68). -/
theorem test_decode_encOff : decode 0b0000000000011000#16 = .ok (.encOff 24) := by rfl

/-- 0000 0 001 10000000: mode 1, temp -128 (W3). -/
theorem test_decode_encCool : decode 0b0000000110000000#16 = .ok (.encCool (-128)) := by rfl

/-- 0000 0 010 00011010: mode 2, temp 26 (W5). -/
theorem test_decode_encAuto : decode 0b0000001000011010#16 = .ok (.encAuto 26) := by rfl

/-- 0000 0 011 00010100: mode 3, temp 20 (W6). -/
theorem test_decode_encDehum : decode 0b0000001100010100#16 = .ok (.encDehum 20) := by rfl

/-- 0000 0 100 00010001: mode 4, temp 17 (W7). -/
theorem test_decode_encClean : decode 0b0000010000010001#16 = .ok (.encClean 17) := by rfl

theorem test_decode_dec : decode 0b0001000000000000#16 = .ok .dec := by rfl

theorem test_decode_txp : decode 0b0010000000000000#16 = .ok .txp := by rfl

theorem test_decode_rxp : decode 0b0011000000000000#16 = .ok .rxp := by rfl

/-- W9 to W12: each class of reserved word, by its name. -/
theorem test_decode_reserved :
    decode 0x0518#16 = .error .mode ∧ decode 0x0718#16 = .error .mode
    ∧ decode 0x0918#16 = .error .bit11 ∧ decode 0x1001#16 = .error .operandBits
    ∧ decode 0x2100#16 = .error .operandBits ∧ decode 0x3018#16 = .error .operandBits
    ∧ decode 0x4000#16 = .error .op ∧ decode 0xFFFF#16 = .error .op :=
  ⟨rfl, rfl, rfl, rfl, rfl, rfl, rfl, rfl⟩

/-- W1 to W8 the other way. -/
theorem test_encode :
    encode (.encOff 24) = 0x0018#16 ∧ encode (.encCool (-1)) = 0x01FF#16
    ∧ encode (.encAuto 26) = 0x021A#16 ∧ encode (.encDehum 20) = 0x0314#16
    ∧ encode (.encClean 17) = 0x0411#16 ∧ encode .dec = 0x1000#16 := by decide

theorem test_decodeTableWord :
    decodeTableWord 16 0x0118 = some (.encCool 24) ∧ decodeTableWord 16 0x0518 = none := by decide

/-! ### Primitives (V1 to V19) -/

theorem test_setField :
    setField 0#48 ⟨24, 5⟩ 0x3F = 0x00001F000000#48
    ∧ setField 0xFFFFFFFFFFFF#48 ⟨16, 4⟩ 0 = 0xFFFFFFF0FFFF#48
    ∧ setField 0x5A000000005A#48 ⟨8, 2⟩ 5 = 0x5A000000015A#48
    ∧ setField 0#48 ⟨47, 1⟩ 1 = 0x800000000000#48
    ∧ setField 0#48 ⟨30, 5⟩ 0x15 = 0x000540000000#48 := by decide

theorem test_getField_and_byte :
    getField 0x123456789ABC#48 ⟨24, 5⟩ = 0x16 ∧ getField 0x123456789ABC#48 ⟨30, 5⟩ = 0x11
    ∧ byte 0x123456789ABC#48 0 = 0xBC#8 ∧ byte 0x123456789ABC#48 5 = 0x12#8 := by decide

theorem test_checksum :
    checksum 0x0102030405FF#48 = 0x0F ∧ checksum 0xFFFFFFFFFF00#48 = 0xFB
    ∧ checksum 0x8080808080AA#48 = 0x80 ∧ checksum 0xFF01000000AA#48 = 0x00
    ∧ checksum 0x123456789ABC#48 = 0xAE := by decide

theorem test_clamp :
    [-128, 5, 16, 17, 18, 24, 30, 31, 35, 127].map clamp = [17, 17, 17, 17, 18, 24, 30, 30, 30, 30] := by
  decide

theorem test_match_ref :
    [374, 375, 500, 625, 626].map (Config.ref.accepts · 500) = [false, true, true, true, false]
    ∧ [5999, 6000, 10000, 10001].map (Config.ref.accepts · 8000) = [false, true, true, false] := by decide

theorem test_match_ref2_and_saturation :
    [299, 300, 500, 501].map (Config.ref2.accepts · 400) = [false, true, true, false]
    ∧ withinTolerance (fun _ => 100) 0 60 = true := by decide

/-! ### ENC (E1 to E26) -/

/-- E9, E14: Off first after reset leaves the table fields; Off after Cool re-sends Cool with POWER 0. -/
theorem test_enc_off :
    encodeFrame Config.ref .off 24 0x5A000000005A#48 .off = 0x5A0000080163#48
    ∧ encodeFrame Config.ref .off 24 0x5A90080801FB#48 .cool = 0x5A100808027C#48 := by decide

/-- E15, E16: after Auto the level is kept; a second Off takes TEMP from `t`, and COUNT wraps 3 to 0. -/
theorem test_enc_off_after_auto :
    encodeFrame Config.ref .off 24 0x5AA81009021D#48 .auto = 0x5A281009039E#48
    ∧ encodeFrame Config.ref .off 24 0x5A281009039E#48 .off = 0x5A281008009A#48 := by decide

/-- E1, E2, E4; E20 under REF2, where TEMP 8 wraps to 0 in three bits. -/
theorem test_enc_cool :
    encodeFrame Config.ref .cool 24 0x5A000000005A#48 .off = 0x5A90080801FB#48
    ∧ encodeFrame Config.ref .cool 5 0x5A000000005A#48 .off = 0x5A90080101F4#48
    ∧ encodeFrame Config.ref .cool 35 0x5A000000005A#48 .off = 0x5A90080E0101#48
    ∧ encodeFrame Config.ref2 .cool 24 0#48 .off = 0x010540002066#48 := by decide

/-- E10, E11, E19: degraded after reset; a true Auto after Cool; AUTOFAN cleared by the degraded Cool. -/
theorem test_enc_auto :
    encodeFrame Config.ref .auto 24 0x5A000000005A#48 .off = 0x5A90080801FB#48
    ∧ encodeFrame Config.ref .auto 24 0x5A90080801FB#48 .cool = 0x5AA81009021D#48
    ∧ encodeFrame Config.ref .auto 26 0x5A281009039E#48 .off = 0x5A90080A00FC#48 := by decide

/-- E12; E23 under REF2. -/
theorem test_enc_dehum :
    encodeFrame Config.ref .dehumidify 24 0x5A000000005A#48 .off = 0x5AB010050120#48
    ∧ encodeFrame Config.ref2 .dehumidify 24 0x0105402060C6#48 .cool = 0x8107C0808048#48 := by decide

/-- E13; E26 under REF2. -/
theorem test_enc_clean :
    encodeFrame Config.ref .clean 24 0x5A000000005A#48 .off = 0x5AC008020125#48
    ∧ encodeFrame Config.ref2 .clean 20 0x01054080C086#48 .cool = 0xC10540E0E0C6#48 := by decide

/-- The eighth of sixteen ENC.COOL 17 under REF2: the counter carries across the byte boundary. -/
theorem test_enc_count_carries :
    encodeFrame Config.ref2 .cool 17 0x01054020E047#48 .cool = 0x010540210067#48 := by decide

/-- R94: what is remembered. -/
theorem test_nextLastMode :
    nextLastMode .auto .off = .cool ∧ nextLastMode .auto .cool = .auto ∧ nextLastMode .off .auto = .off
    ∧ nextLastMode .clean .off = .clean := by decide

/-! ### DEC (K1 to K11) -/

theorem test_dec_valid :
    decPorts Config.ref 0x5A90080801FB#48 =
      { outcome := some .ok, info := some 0#7, fields := some ⟨1, 1, 0, 0x08, 8, 1, 0xFB⟩,
        checksumValid := some true, diagHi := some 0x00005A90#32, diagLo := some 0x080801FB#32 } := by decide

/-- K9: straddling fields, checksum wrong, every output still there. -/
theorem test_dec_mismatch :
    decPorts Config.ref2 0x123456789ABC#48 =
      { outcome := some .checksumMismatch, info := some 0#7, fields := some ⟨0, 0, 1, 0x11, 3, 4, 0xBC⟩,
        checksumValid := some false, diagHi := some 0x00001234#32, diagLo := some 0x56789ABC#32 } := by
  decide

/-! ### TXP (T1, T6) -/

theorem test_txp_spaces :
    ((toPulses Config.ref 0x5A90080801FB#48).map Pair.space) =
      [4000,
       500, 1500, 500, 1500, 1500, 500, 1500, 500, 1500, 500, 500, 1500, 500, 500, 500, 500,
       500, 500, 500, 500, 1500, 500, 500, 500, 500, 500, 500, 500, 1500, 500, 500, 500,
       500, 500, 500, 500, 500, 500, 500, 1500, 1500, 1500, 1500, 1500, 1500, 500, 1500, 1500,
       130000] := by decide

theorem test_txp_length_of_sequence :
    sequenceLength Config.ref 0x5A90080801FB#48 = 206500
    ∧ sequenceLength Config.ref2 0x010540002066#48 = 180500 := by decide

/-! ### RXP (X1 to X17) -/

/-- The flat list of T1. -/
def d1 : List Nat := flat (toPulses Config.ref 0x5A90080801FB#48)

/-- X1, X2, X10: the whole list, without the footer space, and with a surplus; X3, X3a: the space of slot 0 at the window
edges. -/
theorem test_rxp_matches :
    fromPulses Config.ref d1 = .ok 0x5A90080801FB#48
    ∧ fromPulses Config.ref (d1.take 99) = .ok 0x5A90080801FB#48
    ∧ fromPulses Config.ref (d1 ++ [123, 456]) = .ok 0x5A90080801FB#48
    ∧ fromPulses Config.ref (d1.set 3 625) = .ok 0x5A90080801FB#48
    ∧ fromPulses Config.ref (d1.set 3 1125) = .ok 0xDA90080801FB#48 := ⟨rfl, rfl, rfl, rfl, rfl⟩

/-- X2a, X2c, X2d, X3, X3b, X4, X5, X6, X8, X11, X12, X17: each failure, with its index; the lowest index wins. -/
theorem test_rxp_failures :
    fromPulses Config.ref (d1.take 98) = .error ⟨.short, 98⟩
    ∧ fromPulses Config.ref [] = .error ⟨.short, 0⟩
    ∧ fromPulses Config.ref [8000] = .error ⟨.short, 1⟩
    ∧ fromPulses Config.ref (d1.set 0 5999) = .error ⟨.headerMark, 0⟩
    ∧ fromPulses Config.ref (d1.set 1 5001) = .error ⟨.headerSpace, 1⟩
    ∧ fromPulses Config.ref (d1.set 2 374) = .error ⟨.bitMark, 2⟩
    ∧ fromPulses Config.ref (d1.set 3 626) = .error ⟨.bitSpace, 3⟩
    ∧ fromPulses Config.ref (d1.set 3 1876) = .error ⟨.bitSpace, 3⟩
    ∧ fromPulses Config.ref (d1.set 98 700) = .error ⟨.footerMark, 98⟩
    ∧ fromPulses Config.ref ((d1.set 0 1).set 3 1000) = .error ⟨.headerMark, 0⟩
    ∧ fromPulses Config.ref ((d1.set 3 1000).take 50) = .error ⟨.bitSpace, 3⟩
    ∧ fromPulses Config.ref2 d1 = .error ⟨.headerMark, 0⟩ :=
  ⟨rfl, rfl, rfl, rfl, rfl, rfl, rfl, rfl, rfl, rfl, rfl, rfl⟩

/-! ### RECV (R156's example, and a list that does not match) -/

/-- `matched` true, `checksumValid` true, power 1, mode 1, fan 0x08, temp 8, count 1. -/
theorem test_recv_match :
    recvPorts (rxpPorts Config.ref d1) (decPorts Config.ref 0x5A90080801FB#48) =
      { outcome := some .ok, info := some 0#7, fields := some ⟨1, 1, 0, 0x08, 8, 1, 0xFB⟩,
        checksumValid := some true, diagHi := some 0x00005A90#32, diagLo := some 0x080801FB#32,
        matched := some true } := rfl

/-- The empty list: NoMatch.Short at index 0, and DEC is not run. -/
theorem test_recv_noMatch :
    recv [] State.reset = .next { State.reset with
      ports := { outcome := some (.noMatch .short), info := some 0#7, matched := some false } } := rfl

/-! ### The step -/

/-- Does the outcome say "next"? -/
def goesOn : Host.Outcome State Fault Refusal → Bool
  | .next _ => true
  | .fault _ => false
  | .refused _ => false

/-- The first command after reset runs, whatever it is. -/
theorem test_step_runs_first_command :
    goesOn (step (State.reset.withFetchWord 16 0x0118)) = true
    ∧ goesOn (step (State.reset.withFetchWord 16 0x1000)) = true
    ∧ goesOn (step (State.reset.withFetchWord 16 0x2000)) = true
    ∧ goesOn (step (State.reset.withFetchWord 16 0x3000)) = true := by decide

/-- P6: a reserved word reports IllegalCommand, and the registers stand. -/
theorem test_step_reserved_word :
    step (State.reset.withFetchWord 16 0x0518)
      = .next { State.reset with cmd := 0x0518#16, ports := illegalPorts } := rfl

/-! ### Witnesses: a state and operands that meet the hypotheses of each statement that has any -/

/-- A state whose host is about to do `r`. -/
def about (r : Request) : State := { State.reset with pending := [r] }

theorem witness_ResetRequest : (about .reset).pending = .reset :: [] := rfl

theorem witness_StepRuns :
    (about (.command 0x0118#16 0#48 [])).pending = .command 0x0118#16 0#48 [] :: []
    ∧ decode 0x0118#16 = .ok (.encCool 24) := ⟨rfl, rfl⟩

theorem witness_PlacedWord : decodeTableWord 16 0x0480 = some (.encClean (-128)) := by decide

theorem witness_ReservedWord :
    (about (.command 0x0500#16 0#48 [])).pending = .command 0x0500#16 0#48 [] :: []
    ∧ decode 0x0500#16 = .error .mode := ⟨rfl, rfl⟩

theorem witness_Idle : State.reset.pending = [] := rfl

theorem witness_DecodeOfEncode :
    (Instr.encOff 127).wellFormed = true ∧ (Instr.encClean (-128)).wellFormed = true := by decide

theorem witness_EncodeOfDecode : decode 0x04FF#16 = .ok (.encClean (-1)) := rfl

/-- A word at the end of each row of the table, and one of no row (0x0500 stands just after the last ENC row). -/
theorem witness_OpcodeTable :
    0x00FF#16 &&& 0xFF00#16 = 0x0000#16 ∧ 0x0100#16 &&& 0xFF00#16 = 0x0100#16
    ∧ 0x02FF#16 &&& 0xFF00#16 = 0x0200#16 ∧ 0x0300#16 &&& 0xFF00#16 = 0x0300#16
    ∧ 0x04FF#16 &&& 0xFF00#16 = 0x0400#16 ∧ 0x1000#16 &&& 0xFFFF#16 = 0x1000#16
    ∧ 0x2000#16 &&& 0xFFFF#16 = 0x2000#16 ∧ 0x3000#16 &&& 0xFFFF#16 = 0x3000#16 := by decide

theorem witness_OpcodeTable_noRow (i : Instr) : 0x0500#16 &&& tableMask i ≠ tableMatch i := by
  cases i <;> simp [tableMask, tableMatch]

/-- ENC.COOL answers a next state from any state, at both ends of the clamp. -/
theorem witness_EncCool :
    (∃ u, exec (.encCool 17) State.reset = .next u) ∧ ∃ u, exec (.encCool 30) State.reset = .next u :=
  ⟨⟨_, rfl⟩, ⟨_, rfl⟩⟩

theorem witness_EncAuto :
    State.reset.lastMode = .off ∧ ({ State.reset with lastMode := .cool } : State).lastMode ≠ .off := by
  decide

theorem witness_EncFields :
    Config.ref.WF ∧ controlMode .off .off = .off ∧ modeTable Config.ref .auto = some ⟨0x10, 1, 2⟩ :=
  ⟨Config.ref_wf, by decide, by decide⟩

theorem witness_EncFrame :
    isEnc (.encDehum 20) = true ∧ (∃ u, exec (.encDehum 20) State.reset = .next u)
    ∧ Config.ref.Unnamed 47 ∧ Config.ref.Unnamed 10 := ⟨rfl, ⟨_, rfl⟩, by decide, by decide⟩

/-- A control mode of Off: ENC.OFF right after reset. -/
theorem witness_EncFrame_controlOff :
    isEnc (.encOff 20) = true ∧ (∃ u, exec (.encOff 20) State.reset = .next u)
    ∧ intentOf (.encOff 20) = some .off ∧ controlMode .off State.reset.lastMode = .off :=
  ⟨rfl, ⟨_, rfl⟩, rfl, rfl⟩

theorem witness_ReadOnlyFrame :
    isEnc .txp = false ∧ ∃ u, exec .txp State.reset = .next u := ⟨rfl, ⟨_, rfl⟩⟩

theorem witness_SameEncTwice :
    isEnc (.encClean 20) = true ∧ ∃ u v, exec (.encClean 20) State.reset = .next u
      ∧ exec (.encClean 20) u = .next v := ⟨rfl, _, _, rfl, rfl⟩

theorem witness_EncDependsOnTheRegisters :
    isEnc (.encOff 20) = true ∧ State.reset.shadow = (about .reset).shadow
    ∧ State.reset.lastMode = (about .reset).lastMode ∧ (∃ u, exec (.encOff 20) State.reset = .next u)
    ∧ ∃ u, exec (.encOff 20) (about .reset) = .next u := ⟨rfl, rfl, rfl, ⟨_, rfl⟩, ⟨_, rfl⟩⟩

/-- A state that meets the three invariants and a step from it that performs a command. -/
theorem witness_Invariants :
    (about (.command 0x0118#16 0#48 [])).UnnamedKept ∧ (about (.command 0x0118#16 0#48 [])).ChecksumKept
    ∧ (about (.command 0x0118#16 0#48 [])).PortsShaped
    ∧ ∃ u, step (about (.command 0x0118#16 0#48 [])) = .next u :=
  ⟨fun _ _ => rfl, .inl rfl, .empty, ⟨_, rfl⟩⟩

theorem witness_SetFieldThenGetField : (Field.mk 0 48).shift + (Field.mk 0 48).width ≤ 48 := by decide

/-- Both cases of the control mode: a row of the mode table, and none. -/
theorem witness_DecReturnsTheFields :
    intentOf (.encClean (-128)) = some .clean ∧ operandOf (.encClean (-128)) = some (-128)
    ∧ modeTable Config.ref (controlMode .clean .off) = some ⟨0x08, 0, 4⟩
    ∧ intentOf (.encOff 127) = some .off ∧ operandOf (.encOff 127) = some 127
    ∧ controlMode .off State.reset.lastMode = .off := by decide

theorem witness_SetField : (Field.mk 47 1).shift + (Field.mk 47 1).width ≤ 48 := by decide

/-- Two frames that agree on bits 8..47 and differ in byte 0. -/
theorem witness_Checksum (i : Nat) (h : 8 ≤ i) :
    (0x0102030405FF#48).getLsbD i = (0x010203040500#48).getLsbD i := by
  by_cases hi : i < 48
  · interval_cases i <;> rfl
  · rw [BitVec.getLsbD_of_ge _ i (by omega), BitVec.getLsbD_of_ge _ i (by omega)]

theorem witness_Clamp : (16 : Int) < 17 ∧ (30 : Int) < 31 ∧ (17 : Int) ≤ 17 ∧ (30 : Int) ≤ 30 := by decide

theorem witness_BitFlip :
    (0 : Nat) < 48 ∧ (47 : Nat) < 48 ∧ checksumValid 0x5A90080801FB#48 = true := by decide

theorem witness_OnAir :
    Config.ref.sinkAddsGap = false ∧ ({ Config.ref with sinkAddsGap := true } : Cfg).sinkAddsGap = true :=
  ⟨rfl, rfl⟩

/-- Each constant is within its own window. -/
theorem accepts_self (c : Cfg) (e : Nat) : c.accepts e e = true := by
  rw [Cfg.accepts_iff]
  omega

/-- What TXP sends for the all-ones frame, under the block's own configuration. -/
def sentOnes : List Nat := flat (toPulses Config.cfg 0xFFFFFFFFFFFF#48)

/-- Every check of RXP passes on it. -/
theorem witness_Rxp_matches (i : Nat) (h : i ≤ 98) : checkAt Config.cfg sentOnes i = none := by
  obtain ⟨h0, h1⟩ := sent_header Config.cfg 0xFFFFFFFFFFFF#48
  have h98 := (sent_footer Config.cfg 0xFFFFFFFFFFFF#48).1
  by_cases i0 : i = 0
  · subst i0
    simp [checkAt, sentOnes, h0, accepts_self]
  by_cases i1 : i = 1
  · subst i1
    simp [checkAt, sentOnes, h1, accepts_self]
  by_cases i98 : i = 98
  · subst i98
    simp [checkAt, sentOnes, h98, accepts_self]
  have hk : (i - 2) / 2 < 48 := by omega
  obtain ⟨hm, hs⟩ := sent_slot Config.cfg 0xFFFFFFFFFFFF#48 hk
  have hb : ∀ k, k < 48 → (0xFFFFFFFFFFFF#48).getLsbD k = true := by decide
  rw [hb _ (by omega)] at hs
  unfold checkAt sentOnes
  by_cases he : i % 2 = 0
  · rw [show 2 + 2 * ((i - 2) / 2) = i by omega] at hm
    simp only [hm, i0, i1, i98, he, if_false, if_true, accepts_self]
  · rw [show 3 + 2 * ((i - 2) / 2) = i by omega] at hs
    simp only [hs, slotPair, i0, i1, i98, he, if_false, if_true, accepts_self]

/-- A first failure at each end of the range: the header mark just above its window, and a list that ends before the
footer mark. -/
theorem witness_Rxp_failures :
    checkAt Config.cfg [Config.cfg.tHdrMark + Config.cfg.tol Config.cfg.tHdrMark + 1] 0 = some .headerMark
    ∧ checkAt Config.cfg (sentOnes.take 98) 98 = some .short
    ∧ ∀ j, j < 98 → checkAt Config.cfg (sentOnes.take 98) j = none := by
  have hs : sentOnes.length = 100 := rfl
  refine ⟨?_, ?_, fun j hj => ?_⟩
  · have : Config.cfg.accepts (Config.cfg.tHdrMark + Config.cfg.tol Config.cfg.tHdrMark + 1)
        Config.cfg.tHdrMark = false := by
      rw [Bool.eq_false_iff, ne_eq, Cfg.accepts_iff]
      omega
    simp [checkAt, this]
  · simp [checkAt, hs]
  · have := witness_Rxp_matches j (by omega)
    simpa only [checkAt, List.getElem?_take, hj, if_true] using this

/-- A list that differs from what was sent only from index 99 on. -/
theorem witness_RxpNeverReadsBeyond : (sentOnes.set 99 1).take 99 = sentOnes.take 99 := rfl

theorem witness_RoundTrip :
    Config.ref.WF ∧ 99 ≤ d1.length
    ∧ ∀ i a e, i < 99 → d1[i]? = some a → d1[i]? = some e → Config.ref.accepts a e = true := by
  refine ⟨Config.ref_wf, by decide, fun i a e _ h1 h2 => ?_⟩
  rw [h1] at h2
  injection h2 with h2
  rw [h2]
  exact accepts_self _ _

theorem witness_Xmit : Temp.ok 24 = true ∧ Temp.ok (-128) = true := by decide

theorem rxSlots_sentOnes (n k f : Nat) (h : k + n ≤ 48) :
    ∃ g, rxSlots Config.cfg sentOnes n k f = .ok g := by
  induction n generalizing k f with
  | zero => exact ⟨f, rfl⟩
  | succ n ih =>
    obtain ⟨hm, hs⟩ := sent_slot Config.cfg 0xFFFFFFFFFFFF#48 (k := k) (by omega)
    have hb : ∀ k, k < 48 → (0xFFFFFFFFFFFF#48).getLsbD k = true := by decide
    rw [hb _ (by omega)] at hs
    rw [rxSlots_step (d := sentOnes) (needMatch_ok hm (accepts_self _ _)) (b := true)
      (by simp [needBit, sentOnes, hs, slotPair, accepts_self])]
    exact ih _ _ (by omega)

/-- A list that matches under the block's own configuration. -/
theorem witness_Recv_match : ∃ f, fromPulses Config.cfg sentOnes = .ok f := by
  obtain ⟨g, hg⟩ := rxSlots_sentOnes nSlots 0 0 (by decide)
  obtain ⟨h0, h1⟩ := sent_header Config.cfg 0xFFFFFFFFFFFF#48
  have h98 := (sent_footer Config.cfg 0xFFFFFFFFFFFF#48).1
  exact ⟨BitVec.ofNat 48 g, by
    simp only [fromPulses, hg, needMatch_ok (d := sentOnes) h0 (accepts_self _ _),
      needMatch_ok (d := sentOnes) h1 (accepts_self _ _), needMatch_ok (d := sentOnes) h98 (accepts_self _ _),
      bind, Except.bind, pure, Except.pure]⟩

theorem witness_Recv_noMatch : fromPulses Config.cfg [] = .error ⟨.short, 0⟩ := rfl

theorem witness_NotOk :
    (about (.command 0x4000#16 0#48 [])).pending = .command 0x4000#16 0#48 [] :: []
    ∧ step (about (.command 0x4000#16 0#48 []))
        = .next { State.reset with cmd := 0x4000#16, ports := illegalPorts }
    ∧ illegalPorts.outcome ≠ some .ok := ⟨rfl, rfl, by decide⟩

/-- A step that changes LASTMODE. -/
theorem witness_OnlyEncWrites :
    ∃ u, step (about (.command 0x0118#16 0#48 [])) = .next u ∧ u.lastMode ≠ State.reset.lastMode :=
  ⟨_, rfl, by decide⟩

/-- Two states that differ in LASTMODE, and a command that is no ENC. -/
theorem witness_OnlyEncReveals :
    decode 0x1000#16 = .ok .dec ∧ isEnc .dec = false
    ∧ (∃ u, step (about (.command 0x1000#16 0#48 [])) = .next u)
    ∧ ∃ u, step { about (.command 0x1000#16 0#48 []) with lastMode := .clean } = .next u :=
  ⟨rfl, rfl, ⟨_, rfl⟩, ⟨_, rfl⟩⟩

end Sys2Proof.Tests
end

section
/-! SUPPORT. What the frame primitives and Clamp compute, as numbers (spec/00_scope.md rules R13 to R16). -/

namespace Sys2Proof.Machine

/-- The number of R13's formula fits the frame when the field does: no bit from 48 on is set. -/
theorem setField_arg_lt (f : Frame) (F : Field) (v : Nat) (h : F.shift + F.width ≤ 48) :
    f.toNat - getField f F * 2 ^ F.shift + v % 2 ^ F.width * 2 ^ F.shift < 2 ^ 48 := by
  refine Nat.lt_pow_two_of_testBit _ fun i hi => ?_
  have hlo : ¬ i < F.shift := by omega
  have hfield : ¬ i - F.shift < F.width := by omega
  have hpos : i - F.shift - F.width + F.width + F.shift = i := by omega
  rw [setField_arg, Nat.testBit_two_pow_mul_add _ (Nat.mod_lt _ (Nat.two_pow_pos _)), if_neg hlo,
    Nat.testBit_two_pow_mul_add _ (Nat.mod_lt _ (Nat.two_pow_pos _)), if_neg hfield,
    Nat.testBit_div_two_pow, Nat.testBit_div_two_pow, hpos, BitVec.testBit_toNat,
    BitVec.getLsbD_of_ge f i hi]

/-- Within the frame the truncation to 48 bits loses nothing (R13). -/
theorem setField_toNat (f : Frame) (F : Field) (v : Nat) (h : F.shift + F.width ≤ 48) :
    (setField f F v).toNat
      = f.toNat - getField f F * 2 ^ F.shift + v % 2 ^ F.width * 2 ^ F.shift := by
  rw [setField, BitVec.toNat_ofNat, Nat.mod_eq_of_lt (setField_arg_lt f F v h)]

/-- A write to a field puts the value's low bits in it. -/
theorem getLsbD_setField_inside (f : Frame) (F : Field) (v i : Nat) (h : F.shift + F.width ≤ 48)
    (hi : F.Covers i) : (setField f F v).getLsbD i = v.testBit (i - F.shift) := by
  rw [getLsbD_setField f F v i h, if_pos hi]

theorem byte_toNat (f : Frame) (k : Nat) : (byte f k).toNat = f.toNat / 2 ^ (8 * k) % 256 := by
  rw [byte, BitVec.extractLsb'_toNat, Nat.shiftRight_eq_div_pow]

/-- One truncation at the end gives the sum that wraps at each step (R15). -/
theorem checksum_eq_wrapping_sum (f : Frame) :
    checksum f = (byte f 1 + byte f 2 + byte f 3 + byte f 4 + byte f 5).toNat := by
  simp only [checksum, BitVec.toNat_add, Nat.mod_add_mod]

/-- Clamp with the two limits of R6 written out (R16). -/
theorem clamp_eq (t : Int) : clamp t = if t < 17 then 17 else if 30 < t then 30 else t := rfl

theorem clamp_of_lt {t : Int} (h : t < 17) : clamp t = 17 := by
  rw [clamp_eq, if_pos h]

theorem clamp_of_gt {t : Int} (h : 30 < t) : clamp t = 30 := by
  rw [clamp_eq, if_neg (by omega), if_pos h]

theorem clamp_of_mem {t : Int} (hlow : 17 ≤ t) (hhigh : t ≤ 30) : clamp t = t := by
  rw [clamp_eq, if_neg (not_lt.mpr hlow), if_neg (not_lt.mpr hhigh)]

theorem clamp_bounds (t : Int) : 17 ≤ clamp t ∧ clamp t ≤ 30 := by
  rcases lt_or_ge t 17 with hlow | hlow
  · rw [clamp_of_lt hlow]; decide
  · rcases lt_or_ge 30 t with hhigh | hhigh
    · rw [clamp_of_gt hhigh]; decide
    · rw [clamp_of_mem hlow hhigh]; exact ⟨hlow, hhigh⟩

end Sys2Proof.Machine
end

section
/-! The obligations on the primitives of spec/00_scope.md. -/

namespace Sys2Proof.Machine

/-- Settles O32: the formula fits the frame, and each bit is inside the field or outside it. -/
theorem setFieldReplacesTheFieldBitsOnly : Obligations.SetFieldReplacesTheFieldBitsOnly := by
  intro f F v h
  refine ⟨setField_toNat f F v h, (setField f F v).isLt, fun i hlow hhigh => ?_, fun i hout => ?_⟩
  · exact getLsbD_setField_inside f F v i h ⟨hlow, hhigh⟩
  · refine getLsbD_setField_outside f F v i h fun ⟨hlow, hhigh⟩ => ?_
    omega

/-- Settles O34: each byte is a quotient of the frame's number, and none of the five reads bits 7..0. -/
theorem checksumSumsBytesOneToFive : Obligations.ChecksumSumsBytesOneToFive := by
  intro f
  refine ⟨?_, fun _ hg => checksum_congr hg, checksum_eq_wrapping_sum f⟩
  simp only [checksum, byte_toNat, Nat.reduceMul]

/-- Settles O35: one law of `clamp` for each of its three cases. -/
theorem clampSaturatesToSeventeenAndThirty : Obligations.ClampSaturatesToSeventeenAndThirty := by
  intro t
  exact ⟨clamp_of_lt, clamp_of_gt, clamp_of_mem, clamp_bounds t⟩

end Sys2Proof.Machine
end

section
/-! SUPPORT. What an ENC command's word is as a sum of bits, and what an ENC with a row of the mode table does to the
state (spec/30_encoding.md rule R77, spec/40_framecodec_encode.md rules R91 to R95). -/

namespace Sys2Proof.Machine

/-- `(code(m) << 8) | (t mod 256)`, as R77 writes it. -/
theorem encWord_eq_or (m : Mode) (t : Int) :
    encWord m t = m.code.setWidth 16 <<< 8 ||| (BitVec.ofInt 8 t).setWidth 16 := by
  apply BitVec.eq_of_getLsbD_eq
  intro j hj
  simp only [encWord, BitVec.getLsbD_append, BitVec.getLsbD_or, BitVec.getLsbD_shiftLeft, BitVec.getLsbD_setWidth]
  by_cases hlow : j < 8
  · simp [hlow, hj]
  · have hhigh : (BitVec.ofInt 8 t).getLsbD j = false := BitVec.getLsbD_of_ge _ j (by omega)
    by_cases hcode : j - 8 < 3
    · have hword : j - 8 < 16 := by omega
      simp [hlow, hj, hhigh, hcode, hword]
    · have hzero : m.code.getLsbD (j - 8) = false := BitVec.getLsbD_of_ge _ _ (by omega)
      simp [hlow, hhigh, hcode, hzero]

theorem offsetTemp_eq (t : Int) : offsetTemp t = (clamp t - 16).toNat := by
  have hbase : clamp t - tempMin + 1 = clamp t - 16 := by
    rw [tempMin]
    omega
  rw [offsetTemp, hbase]

/-- An intent that is neither Off nor Auto is its own control mode, whatever LASTMODE is (R91). -/
theorem controlMode_eq_self {m : Mode} (last : Mode) (hoff : m ≠ .off) (hauto : m ≠ .auto) :
    controlMode m last = m := by
  simp [controlMode, hoff, hauto]

theorem nextLastMode_eq_self {m : Mode} (last : Mode) (hoff : m ≠ .off) (hauto : m ≠ .auto) :
    nextLastMode m last = m := by
  rw [nextLastMode, if_neg hoff, controlMode_eq_self last hoff hauto]

/-- The frame of an ENC whose control mode has a row in the mode table (R92, R95). -/
theorem encodeFrame_of_row {c : Cfg} {m last : Mode} {r : ModeRow}
    (hrow : modeTable c (controlMode m last) = some r) (t : Int) (shadow : Frame) :
    encodeFrame c m t shadow last
      = finishFrame c (tempValue c (controlMode m last) t)
          (writeRow c r.fan r.autofan r.mode (setField shadow c.power (powerValue m))) := by
  rw [encodeFrame, hrow]
  rfl

theorem enc_eq_afterEnc (c : Cfg) (m : Mode) (t : Int) (s : State) :
    enc c m t s = afterEnc (encodeFrame c m t s.shadow s.lastMode) (nextLastMode m s.lastMode) s := rfl

/-- ENC with an intent that is neither Off nor Auto writes that mode's own row and remembers the mode. -/
theorem enc_writes_own_row {c : Cfg} {m : Mode} {r : ModeRow} (hoff : m ≠ .off) (hauto : m ≠ .auto)
    (hrow : modeTable c m = some r) (t : Int) (s : State) :
    enc c m t s = afterEnc
      (finishFrame c (tempValue c m t)
        (writeRow c r.fan r.autofan r.mode (setField s.shadow c.power 1))) m s := by
  have hcm : controlMode m s.lastMode = m := controlMode_eq_self s.lastMode hoff hauto
  have hpower : powerValue m = 1 := if_neg hoff
  rw [enc_eq_afterEnc, encodeFrame_of_row (by rw [hcm]; exact hrow), hcm, hpower,
    nextLastMode_eq_self s.lastMode hoff hauto]

/-- The counter step and the checksum leave TEMP as it was written. -/
theorem getField_finishFrame_temp {c : Cfg} (h : c.WF) (tv : Nat) (f : Frame) :
    getField (finishFrame c tv f) c.temp = tv % 2 ^ c.wTemp := by
  obtain ⟨-, -, -, -, -, -, -, -, -, -, -, -, -, -, htempCount⟩ := disjoint_pairs h
  have htemp := field_bounds h (temp_mem c)
  calc getField (finishFrame c tv f) c.temp
      = getField (stepCount c (setField f c.temp tv)) c.temp := getField_stampChecksum htemp.1 _
    _ = getField (setField f c.temp tv) c.temp :=
        getField_setField_disjoint _ _ _ _ (field_bounds h (count_mem c)).2 (disjoint_swap htempCount)
    _ = tv % 2 ^ c.wTemp := getField_setField_self f c.temp tv htemp.2

@[simp] theorem afterEnc_shadow (f : Frame) (m : Mode) (s : State) : (afterEnc f m s).shadow = f := rfl

/-- An ENC overwrites LASTMODE (R94). -/
@[simp] theorem afterEnc_with_lastMode (f : Frame) (m m' : Mode) (s : State) :
    afterEnc f m { s with lastMode := m' } = afterEnc f m s := rfl

theorem clamp_of_le {t : Int} (h : t ≤ 17) : clamp t = clamp 17 := by
  rcases h.lt_or_eq with hlt | heq
  · rw [clamp_of_lt hlt]
    rfl
  · rw [heq]

theorem clamp_of_ge {t : Int} (h : 30 ≤ t) : clamp t = clamp 30 := by
  rcases h.lt_or_eq with hlt | heq
  · rw [clamp_of_gt hlt]
    rfl
  · rw [heq]

end Sys2Proof.Machine
end

section
/-! What the three ENC commands that always use their own row of the mode table do: they write SHADOW, LASTMODE and the
result ports, and leave the rest of the state as it was. -/

namespace Sys2Proof.Machine

/-- ENC.COOL writes the Cool row and the offset-encoded clamped target (R97). -/
theorem exec_encCool (t : Int) (s : State) :
    exec (.encCool t) s = .next (afterEnc
      (finishFrame Config.cfg (clamp t - 16).toNat
        (writeRow Config.cfg Config.cfg.fanDefault Config.cfg.afCool Config.cfg.mcCool
          (setField s.shadow Config.cfg.power 1)))
      .cool s) := by
  have henc := enc_writes_own_row (c := Config.cfg) (m := .cool) (by decide) (by decide) rfl t s
  rw [tempValue, offsetTemp_eq] at henc
  exact congrArg Host.Outcome.next henc

/-- ENC.DEHUM writes the Dehumidify row and LVL_DEHUM (R99). -/
theorem exec_encDehum (t : Int) (s : State) :
    exec (.encDehum t) s = .next (afterEnc
      (finishFrame Config.cfg Config.cfg.lvlDehum
        (writeRow Config.cfg Config.cfg.fanMax Config.cfg.afDehum Config.cfg.mcDehum
          (setField s.shadow Config.cfg.power 1)))
      .dehumidify s) := by
  have henc := enc_writes_own_row (c := Config.cfg) (m := .dehumidify) (by decide) (by decide) rfl t s
  exact congrArg Host.Outcome.next henc

/-- ENC.CLEAN writes the Clean row and LVL_CLEAN (R100). -/
theorem exec_encClean (t : Int) (s : State) :
    exec (.encClean t) s = .next (afterEnc
      (finishFrame Config.cfg Config.cfg.lvlClean
        (writeRow Config.cfg Config.cfg.fanDefault Config.cfg.afClean Config.cfg.mcClean
          (setField s.shadow Config.cfg.power 1)))
      .clean s) := by
  have henc := enc_writes_own_row (c := Config.cfg) (m := .clean) (by decide) (by decide) rfl t s
  exact congrArg Host.Outcome.next henc

/-- TEMP after an ENC.COOL, for every target. -/
theorem getField_temp_of_encCool {t : Int} {s u : State} (h : exec (.encCool t) s = .next u) :
    getField u.shadow Config.cfg.temp = (clamp t - 16).toNat % 2 ^ Config.cfg.wTemp := by
  rw [exec_encCool] at h
  cases h
  rw [afterEnc_shadow, getField_finishFrame_temp Config.cfg_wf]

/-- ENC.COOL sees the target through Clamp alone. -/
theorem exec_encCool_congr {t t' : Int} (h : clamp t = clamp t') (s : State) :
    exec (.encCool t) s = exec (.encCool t') s := by
  rw [exec_encCool, exec_encCool, h]

end Sys2Proof.Machine
end

section
/-! The obligations on ENC.COOL, ENC.DEHUM and ENC.CLEAN (spec/40_framecodec_encode.md). -/

namespace Sys2Proof.Machine

/-- Settles O14: the whole effect is `exec_encCool`, and the corner cases are those of Clamp. -/
theorem encCoolWritesTheCoolRowAndTheClampedTarget :
    Obligations.EncCoolWritesTheCoolRowAndTheClampedTarget := by
  refine ⟨encWord_eq_or .cool, exec_encCool, fun t s u h => ⟨fun hlow => ?_, fun hhigh => ?_⟩,
    fun t s => ⟨fun hlow => exec_encCool_congr (clamp_of_le hlow) s,
      fun hhigh => exec_encCool_congr (clamp_of_ge hhigh) s⟩, fun t s m => ?_, by decide⟩
  · rw [getField_temp_of_encCool h, clamp_of_le hlow]
    rfl
  · rw [getField_temp_of_encCool h, clamp_of_ge hhigh]
    rfl
  · rw [exec_encCool, exec_encCool, afterEnc_with_lastMode]

/-- Settles O16: neither `t` nor LASTMODE stands in the effect that `exec_encDehum` states. -/
theorem encDehumWritesTheDehumidifyRow : Obligations.EncDehumWritesTheDehumidifyRow := by
  refine ⟨encWord_eq_or .dehumidify, exec_encDehum, fun t t' s m => ?_, by decide⟩
  rw [exec_encDehum, exec_encDehum, afterEnc_with_lastMode]

/-- Settles O17: neither `t` nor LASTMODE stands in the effect that `exec_encClean` states. -/
theorem encCleanWritesTheCleanRow : Obligations.EncCleanWritesTheCleanRow := by
  refine ⟨encWord_eq_or .clean, exec_encClean, fun t t' s m => ?_, by decide⟩
  rw [exec_encClean, exec_encClean, afterEnc_with_lastMode]

end Sys2Proof.Machine
end

section
/-! SUPPORT. What DEC computes from a frame, as numbers and bit strings, and the zero frame (spec/41_framecodec_decode.md
rules R121 and R122). -/

namespace Sys2Proof.Machine

theorem getField_cks (f : Frame) : getField f cks = f.toNat % 256 := rfl

@[simp] theorem getField_zero (F : Field) : getField 0#48 F = 0 := by
  rw [getField, BitVec.toNat_zero, Nat.zero_shiftRight, Nat.zero_mod]

theorem extractFields_zero (c : Cfg) : extractFields c 0#48 = ⟨0, 0, 0, 0, 0, 0, 0⟩ := by
  simp only [extractFields, getField_zero]

theorem checksumValid_eq_decide (f : Frame) :
    checksumValid f = decide (checksum f = f.toNat % 256) := by
  rw [checksumValid, getField_cks, beq_eq_decide]

theorem decOutcome_eq (f : Frame) :
    decOutcome f = if checksum f = getField f cks then .ok else .checksumMismatch := by
  simp only [decOutcome, checksumValid, beq_iff_eq]

/-- The high diagnostic word is bits 47..32 under 16 zeros (R122). -/
theorem diagHi_eq_append (f : Frame) : diagHi f = 0#16 ++ f.extractLsb' 32 16 :=
  BitVec.setWidth_eq_append (by decide)

theorem diagHi_eq_ofNat (f : Frame) : diagHi f = BitVec.ofNat 32 (f.toNat / 2 ^ 32) := by
  have hfit : f.toNat / 2 ^ 32 < 2 ^ 16 := by
    have := f.isLt
    omega
  apply BitVec.eq_of_toNat_eq
  rw [diagHi, BitVec.zeroExtend_eq_setWidth, BitVec.toNat_setWidth, BitVec.extractLsb'_toNat,
    Nat.shiftRight_eq_div_pow, Nat.mod_eq_of_lt hfit, BitVec.toNat_ofNat]

theorem diagLo_eq_ofNat (f : Frame) : diagLo f = BitVec.ofNat 32 (f.toNat % 2 ^ 32) := by
  apply BitVec.eq_of_toNat_eq
  rw [diagLo, BitVec.extractLsb'_toNat, Nat.shiftRight_zero, BitVec.toNat_ofNat, Nat.mod_mod]

/-- DEC drives the result ports with what it finds in `fin` and changes nothing else (R120, R121). -/
theorem exec_dec (s : State) : exec .dec s = .next { s with ports := decPorts Config.cfg s.fin } := rfl

end Sys2Proof.Machine
end

section
/-! The obligations on DEC (spec/41_framecodec_decode.md). -/

namespace Sys2Proof.Machine

/-- Settles O39: the high word is the frame's top 16 bits under zeros, and those 16 bits stand next to the low word's. -/
theorem diagnosticWordsRejoinToTheFrame : Obligations.DiagnosticWordsRejoinToTheFrame := by
  intro f
  rw [diagHi_eq_append]
  constructor
  · calc (0#16 ++ f.extractLsb' 32 16).extractLsb' 0 16 ++ diagLo f
        = f.extractLsb' 32 16 ++ f.extractLsb' 0 32 := by rw [BitVec.extractLsb'_append_eq_right, diagLo]
      _ = f := BitVec.extractLsb'_append_extractLsb'
  · exact BitVec.extractLsb'_append_eq_left

/-- Settles O38: the whole effect is `exec_dec`, port by port; a field's bits are those of `testBit_getField`. -/
theorem decExtractsEveryFieldAndComparesTheChecksum :
    Obligations.DecExtractsEveryFieldAndComparesTheChecksum := by
  refine ⟨rfl, fun s => ?_, extractFields_zero, by decide, by decide, by decide, fun f F j hj => ?_, by decide⟩
  · dsimp only
    rw [exec_dec, decPorts, decOutcome_eq, extractFields, getField_cks, checksumValid_eq_decide, diagHi_eq_ofNat,
      diagLo_eq_ofNat]
  · rw [testBit_getField, decide_eq_true hj, Bool.true_and]

end Sys2Proof.Machine
end

section
/-! SUPPORT. What TXP drives, its header pair, and the slots of the zero and the all-ones frame
(spec/42_pulse_tx.md rule R131). -/

namespace Sys2Proof.Machine

/-- TXP drives the result ports with the sequence of `fin` and changes nothing else (R130, R131). -/
theorem exec_txp (s : State) : exec .txp s = .next { s with ports := txpPorts Config.cfg s.fin } := rfl

theorem toPulses_header (c : Cfg) (f : Frame) : (toPulses c f)[0]? = some (headerPair c) := rfl

theorem toPulses_slot_zero (c : Cfg) {k : Nat} (hk : k < 48) :
    (toPulses c 0#48)[1 + k]? = some ⟨c.tBitMark, c.tZeroSpace⟩ := by
  rw [toPulses_slot c _ hk, BitVec.getLsbD_zero]
  rfl

theorem toPulses_slot_allOnes (c : Cfg) {k : Nat} (hk : k < 48) :
    (toPulses c (BitVec.allOnes 48))[1 + k]? = some ⟨c.tBitMark, c.tOneSpace⟩ := by
  have hbit : 47 - k < 48 := by omega
  rw [toPulses_slot c _ hk, BitVec.getLsbD_allOnes, decide_eq_true hbit]
  rfl

end Sys2Proof.Machine
end

section
/-! The obligation on TXP (spec/42_pulse_tx.md). -/

namespace Sys2Proof.Machine

/-- Settles O41: TXP's whole effect is `exec_txp`, and its sequence is read by index through the lemmas on `toPulses`. -/
theorem txpSendsFiftyPairsMostSignificantBitFirst :
    Obligations.TxpSendsFiftyPairsMostSignificantBitFirst := by
  refine ⟨rfl, fun s => ?effect, fun c k hk => ?corners, ?refExample⟩
  case effect =>
    exact ⟨toPulses Config.cfg s.fin, exec_txp s, toPulses_length _ _, toPulses_header _ _,
      fun _ hk => toPulses_slot _ _ hk, toPulses_footer _ _⟩
  case corners => exact ⟨toPulses_slot_zero c hk, toPulses_slot_allOnes c hk⟩
  case refExample => decide

end Sys2Proof.Machine
end

section
/-! SUPPORT. What RXP drives, and that its checks read the first 99 durations alone (spec/43_pulse_rx.md rules R140
and R144). -/

namespace Sys2Proof.Machine

/-- RXP drives the result ports with what it finds in `pin` and changes nothing else (R140, R141). -/
theorem exec_rxp (s : State) : exec .rxp s = .next { s with ports := rxpPorts Config.cfg s.pin } := rfl

theorem needMatch_take {n i : Nat} (h : i < n) (c : Cfg) (d : List Nat) (e : Nat) (why : NoMatch) :
    needMatch c (d.take n) i e why = needMatch c d i e why := by
  rw [needMatch, needMatch, List.getElem?_take_of_lt h]

theorem needBit_take {n i : Nat} (h : i < n) (c : Cfg) (d : List Nat) :
    needBit c (d.take n) i = needBit c d i := by
  rw [needBit, needBit, List.getElem?_take_of_lt h]

/-- The `n` slots from slot `k` on end with the duration at index `2 * (k + n) + 1`. -/
theorem rxSlots_take {l n k : Nat} (h : 2 * (k + n) + 2 ≤ l) (c : Cfg) (d : List Nat) (f : Nat) :
    rxSlots c (d.take l) n k f = rxSlots c d n k f := by
  induction n generalizing k f with
  | zero => rfl
  | succ n ih =>
    have hrest : 2 * (k + 1 + n) + 2 ≤ l := by omega
    simp (disch := omega) only [rxSlots, needMatch_take, needBit_take, ih hrest]

/-- RXP makes its last check at the footer mark, index 98 (R144). -/
theorem fromPulses_take (c : Cfg) (d : List Nat) : fromPulses c (d.take 99) = fromPulses c d := by
  simp (disch := decide) only [fromPulses, needMatch_take, rxSlots_take]

theorem rxpPorts_take (c : Cfg) (d : List Nat) : rxpPorts c (d.take 99) = rxpPorts c d := by
  rw [rxpPorts, rxpPorts, fromPulses_take]

end Sys2Proof.Machine
end

section
/-! The obligation on RXP's reads (spec/43_pulse_rx.md). -/

namespace Sys2Proof.Machine

/-- Settles O46: RXP's whole effect is `exec_rxp`, and either list may be cut to its first 99 durations. -/
theorem rxpNeverReadsBeyondTheFooterMark : Obligations.RxpNeverReadsBeyondTheFooterMark := by
  intro s d htake
  have hports : rxpPorts Config.cfg d = rxpPorts Config.cfg s.pin := by
    rw [← rxpPorts_take, htake, rxpPorts_take]
  exact ⟨rxpPorts Config.cfg s.pin, exec_rxp s, by rw [exec_rxp, hports]⟩

end Sys2Proof.Machine
end

section
/-! SUPPORT. The ENC command of a mode as one case, and the fields of the command word (spec/30_encoding.md rules R68,
R70, R71, R73 and R77). -/

namespace Sys2Proof.Machine

/-- The ENC command of the intent mode `m` with operand `t`: the five rows of the opcode table as one (R70, R73). -/
def encInstr : Mode → Int → Instr
  | .off => .encOff
  | .cool => .encCool
  | .auto => .encAuto
  | .dehumidify => .encDehum
  | .clean => .encClean

@[simp] theorem encode_encInstr (m : Mode) (t : Int) : encode (encInstr m t) = encWord m t := by
  cases m <;> rfl

@[simp] theorem wellFormed_encInstr (m : Mode) (t : Int) : (encInstr m t).wellFormed = Temp.ok t := by
  cases m <;> rfl

@[simp] theorem isEnc_encInstr (m : Mode) (t : Int) : isEnc (encInstr m t) = true := by
  cases m <;> rfl

@[simp] theorem intentOf_encInstr (m : Mode) (t : Int) : intentOf (encInstr m t) = some m := by
  cases m <;> rfl

@[simp] theorem operandOf_encInstr (m : Mode) (t : Int) : operandOf (encInstr m t) = some t := by
  cases m <;> rfl

/-- ENC of every mode is the one shared operation `enc` (R95). -/
@[simp] theorem exec_encInstr (m : Mode) (t : Int) (s : State) :
    exec (encInstr m t) s = .next (enc Config.cfg m t s) := by
  cases m <;> rfl

/-- Every command is an ENC of some mode, or DEC, TXP or RXP. -/
theorem instr_cases (i : Instr) : (∃ m t, i = encInstr m t) ∨ i = .dec ∨ i = .txp ∨ i = .rxp := by
  cases i with
  | encOff t => exact .inl ⟨.off, t, rfl⟩
  | encCool t => exact .inl ⟨.cool, t, rfl⟩
  | encAuto t => exact .inl ⟨.auto, t, rfl⟩
  | encDehum t => exact .inl ⟨.dehumidify, t, rfl⟩
  | encClean t => exact .inl ⟨.clean, t, rfl⟩
  | dec => exact .inr (.inl rfl)
  | txp => exact .inr (.inr (.inl rfl))
  | rxp => exact .inr (.inr (.inr rfl))

theorem eq_encInstr_of_isEnc {i : Instr} (h : isEnc i = true) : ∃ m t, i = encInstr m t := by
  rcases instr_cases i with henc | rfl | rfl | rfl
  · exact henc
  all_goals cases h

theorem eq_encInstr_of_intentOf {i : Instr} {m : Mode} {t : Int} (hm : intentOf i = some m)
    (ht : operandOf i = some t) : i = encInstr m t := by
  rcases instr_cases i with ⟨m', t', rfl⟩ | rfl | rfl | rfl
  · rw [intentOf_encInstr] at hm
    rw [operandOf_encInstr] at ht
    cases hm
    cases ht
    rfl
  all_goals cases hm

/-- A command word is the concatenation of its four fields (R68). -/
theorem cmdWord_eq_append (w : CmdWord) :
    w = w.extractLsb' 12 4 ++ w.extractLsb' 11 1 ++ w.extractLsb' 8 3 ++ w.extractLsb' 0 8 := by
  rw [BitVec.extractLsb'_append_extractLsb'_eq_extractLsb' (by decide),
    BitVec.extractLsb'_append_extractLsb'_eq_extractLsb' (by decide),
    BitVec.extractLsb'_append_extractLsb'_eq_extractLsb' (by decide)]
  exact BitVec.extractLsb'_eq_self.symm

/-- A word with 0 in bits 15..11 and a mode's code in bits 10..8 is that mode's ENC word. -/
theorem eq_encWord_of_fields {w : CmdWord} {m : Mode} (hop : opBits w = 0) (hbit : w.getLsbD 11 = false)
    (hmode : modeBits w = m.code.toNat) : w = encWord m (tempOperand w) := by
  have hop' : w.extractLsb' 12 4 = 0#4 := BitVec.eq_of_toNat_eq hop
  have hbit' : w.extractLsb' 11 1 = 0#1 := by
    apply BitVec.eq_of_getLsbD_eq
    intro j hj
    obtain rfl : j = 0 := by omega
    rw [BitVec.getLsbD_extractLsb', Nat.add_zero, hbit, Bool.and_false, BitVec.getLsbD_zero]
  have hmode' : w.extractLsb' 8 3 = m.code := BitVec.eq_of_toNat_eq hmode
  rw [encWord, tempOperand, BitVec.ofInt_toInt, ← hop', ← hbit', ← hmode']
  exact cmdWord_eq_append w

theorem temp_ok_iff (t : Int) : Temp.ok t = true ↔ -128 ≤ t ∧ t ≤ 127 := by
  rw [Temp.ok, Bool.and_eq_true, decide_eq_true_eq, decide_eq_true_eq]

theorem temp_ok_tempOperand (w : CmdWord) : Temp.ok (tempOperand w) = true := by
  have hlow : -128 ≤ tempOperand w := BitVec.le_toInt _
  have hhigh : tempOperand w < 128 := BitVec.toInt_lt
  exact (temp_ok_iff _).mpr ⟨hlow, by omega⟩

theorem extractLsb'_low_encWord (m : Mode) (t : Int) : (encWord m t).extractLsb' 0 8 = BitVec.ofInt 8 t :=
  BitVec.extractLsb'_append_eq_right

/-- The operand comes back when the word can hold it (R71). -/
theorem tempOperand_encWord (m : Mode) {t : Int} (h : Temp.ok t = true) : tempOperand (encWord m t) = t := by
  obtain ⟨hlow, hhigh⟩ := (temp_ok_iff t).mp h
  rw [tempOperand, extractLsb'_low_encWord]
  exact BitVec.toInt_ofInt_eq_self (by decide) hlow (by omega)

theorem opBits_encWord (m : Mode) (t : Int) : opBits (encWord m t) = 0 := by
  rw [opBits, encWord, BitVec.extractLsb'_append_eq_of_le (by decide), BitVec.extractLsb'_append_eq_of_le (by decide)]
  rfl

theorem getLsbD_encWord_bit11 (m : Mode) (t : Int) : (encWord m t).getLsbD 11 = false := by
  rw [encWord, BitVec.getLsbD_append, if_neg (by decide), BitVec.getLsbD_append, if_neg (by decide)]
  rfl

theorem modeBits_encWord (m : Mode) (t : Int) : modeBits (encWord m t) = m.code.toNat := by
  rw [modeBits, encWord, BitVec.extractLsb'_append_eq_of_le (by decide)]
  exact congrArg BitVec.toNat BitVec.extractLsb'_append_eq_right

/-- Every ENC word decodes, whatever number was put in its operand. -/
theorem decode_encWord_tempOperand (m : Mode) (t : Int) :
    decode (encWord m t) = .ok (encInstr m (tempOperand (encWord m t))) := by
  simp only [decode, opBits_encWord, encCommand, getLsbD_encWord_bit11, modeBits_encWord, Bool.false_eq_true, if_false]
  cases m <;> rfl

theorem decode_encWord (m : Mode) {t : Int} (h : Temp.ok t = true) :
    decode (encWord m t) = .ok (encInstr m t) := by
  rw [decode_encWord_tempOperand, tempOperand_encWord m h]

end Sys2Proof.Machine
end

section
/-! The obligation on decode of encode (spec/30_encoding.md). -/

namespace Sys2Proof.Machine

/-- Settles O8: an ENC word by its four fields, the three bare words by evaluation. -/
theorem decodeOfEncodeIsTheCommand : Obligations.DecodeOfEncodeIsTheCommand := by
  intro i hi
  rcases instr_cases i with ⟨m, t, rfl⟩ | rfl | rfl | rfl
  · rw [wellFormed_encInstr] at hi
    rw [encode_encInstr, decode_encWord m hi]
  all_goals rfl

end Sys2Proof.Machine
end

section
/-! SUPPORT. The step by the host's next request, and what a step does to SHADOW and LASTMODE (spec/20_memory.md rule
R48, spec/10_state.md rules R21 and R24). -/

namespace Sys2Proof.Machine

theorem step_idle {s : State} (h : s.pending = []) : step s = .next s := by
  rw [step, h]

theorem step_reset {s : State} {rest : List Request} (h : s.pending = .reset :: rest) :
    step s = .next (resetBlock Config.cfg { s with pending := rest }) := by
  rw [step, h]

theorem step_command {s : State} {w : CmdWord} {f : Frame} {d : List Nat} {rest : List Request}
    (h : s.pending = .command w f d :: rest) : step s = transact (present w f d rest s) := by
  rw [step, h]

theorem step_of_decode_ok {s : State} {w : CmdWord} {f : Frame} {d : List Nat} {rest : List Request} {i : Instr}
    (h : s.pending = .command w f d :: rest) (hw : decode w = .ok i) :
    step s = exec i (present w f d rest s) := by
  rw [step_command h, transact, present_cmd, hw]

theorem step_of_decode_error {s : State} {w : CmdWord} {f : Frame} {d : List Nat} {rest : List Request}
    {r : Reserved} (h : s.pending = .command w f d :: rest) (hw : decode w = .error r) :
    step s = .next (refuseCommand (present w f d rest s)) := by
  rw [step_command h, transact, present_cmd, hw]

theorem decode_of_decodeTableWord {nbits w : Nat} {i : Instr} (h : decodeTableWord nbits w = some i) :
    decode (BitVec.ofNat 16 (w % 2 ^ nbits)) = .ok i := by
  unfold decodeTableWord at h
  split at h
  · split at h
    · cases h
      assumption
    · cases h
  · cases h

/-- A command that is no ENC drives results that it computes from `fin` and `pin` alone, and does nothing else
(R47, R120, R130, R140). -/
theorem exec_of_not_isEnc {i : Instr} (h : isEnc i = false) (f : Frame) (d : List Nat) :
    ∃ p, ∀ s : State, s.fin = f → s.pin = d → exec i s = .next (drive p s) := by
  rcases instr_cases i with ⟨m, t, rfl⟩ | rfl | rfl | rfl
  · rw [isEnc_encInstr] at h
    cases h
  · exact ⟨decPorts Config.cfg f, fun s hf _ => by rw [← hf]; rfl⟩
  · exact ⟨txpPorts Config.cfg f, fun s hf _ => by rw [← hf]; rfl⟩
  · exact ⟨rxpPorts Config.cfg d, fun s _ hd => by rw [← hd]; rfl⟩

theorem eq_drive_of_not_isEnc {i : Instr} {s u : State} (h : isEnc i = false) (hu : exec i s = .next u) :
    ∃ p, u = drive p s := by
  obtain ⟨p, hp⟩ := exec_of_not_isEnc h s.fin s.pin
  rw [hp s rfl rfl] at hu
  cases hu
  exact ⟨p, rfl⟩

/-- Every command answers a next state (R163). -/
theorem exec_goes (i : Instr) (s : State) : ∃ u, exec i s = .next u := by
  rcases instr_cases i with ⟨m, t, rfl⟩ | rfl | rfl | rfl
  · exact ⟨_, exec_encInstr m t s⟩
  all_goals exact ⟨_, rfl⟩

/-- Every step answers a next state (R189). -/
theorem state_goes (s : State) : s.Goes := by
  cases hp : s.pending with
  | nil => exact ⟨_, step_idle hp⟩
  | cons r rest =>
    cases r with
    | reset => exact ⟨_, step_reset hp⟩
    | command w f d =>
      cases hw : decode w with
      | error r => exact ⟨_, step_of_decode_error hp hw⟩
      | ok i =>
        obtain ⟨u, hu⟩ := exec_goes i (present w f d rest s)
        exact ⟨u, (step_of_decode_ok hp hw).trans hu⟩

/-- A step leaves both registers, or takes the reset input, or performs an ENC (R21, R24, R25). -/
theorem step_registers {s u : State} (h : step s = .next u) :
    (u.shadow = s.shadow ∧ u.lastMode = s.lastMode)
    ∨ (∃ rest, s.pending = .reset :: rest ∧ u.shadow = Config.cfg.frameReset)
    ∨ (∃ w f d rest m t, s.pending = .command w f d :: rest ∧ decode w = .ok (encInstr m t)
        ∧ u = enc Config.cfg m t (present w f d rest s)) := by
  rcases step_cases h with ⟨-, rfl⟩ | ⟨rest, hp, rfl⟩ | ⟨w, f, d, rest, hp, ⟨r, -, rfl⟩ | ⟨i, hw, hu⟩⟩
  · exact .inl ⟨rfl, rfl⟩
  · exact .inr (.inl ⟨rest, hp, rfl⟩)
  · exact .inl ⟨rfl, rfl⟩
  · cases hi : isEnc i with
    | true =>
      obtain ⟨m, t, rfl⟩ := eq_encInstr_of_isEnc hi
      rw [exec_encInstr] at hu
      cases hu
      exact .inr (.inr ⟨w, f, d, rest, m, t, hp, hw, rfl⟩)
    | false =>
      obtain ⟨p, rfl⟩ := eq_drive_of_not_isEnc hi hu
      exact .inl ⟨rfl, rfl⟩

/-- What an ENC leaves in SHADOW has its own checksum in byte 0 (R95, R102 a). -/
theorem checksumValid_encodeFrame (c : Cfg) (m : Mode) (t : Int) (shadow : Frame) (last : Mode) :
    checksumValid (encodeFrame c m t shadow last) = true :=
  checksumValid_stampChecksum _

end Sys2Proof.Machine
end

section
/-! The obligations on the two registers over every step (spec/10_state.md). -/

namespace Sys2Proof.Machine

/-- Settles O28: SHADOW stands, is `FRAME_RESET`, or is what an ENC made of it, which changes no unnamed bit. -/
theorem everyStepKeepsTheUnnamedBits : Obligations.EveryStepKeepsTheUnnamedBits := by
  intro s u hs hstep j hj
  rcases step_registers hstep with ⟨hshadow, -⟩ | ⟨rest, -, hshadow⟩ | ⟨w, f, d, rest, m, t, -, -, rfl⟩
  · rw [hshadow, hs j hj]
  · rw [hshadow]
  · calc (enc Config.cfg m t (present w f d rest s)).shadow.getLsbD j
        = s.shadow.getLsbD j := getLsbD_encodeFrame_unnamed Config.cfg_wf m t _ _ hj
      _ = Config.cfg.frameReset.getLsbD j := hs j hj

/-- Settles O29: SHADOW stands, is `FRAME_RESET`, or is a frame that an ENC stamped. -/
theorem everyStepKeepsTheChecksumInvariant : Obligations.EveryStepKeepsTheChecksumInvariant := by
  intro s u hs hstep
  rcases step_registers hstep with ⟨hshadow, -⟩ | ⟨rest, -, hshadow⟩ | ⟨w, f, d, rest, m, t, -, -, rfl⟩
  · rw [State.ChecksumKept, hshadow]
    exact hs
  · exact .inl hshadow
  · exact .inr (checksumValid_encodeFrame _ _ _ _ _)

/-- Settles O22: the checksum is stamped last of all. -/
theorem everyEncodedFrameIsChecksumValid : Obligations.EveryEncodedFrameIsChecksumValid :=
  checksumValid_encodeFrame

/-- Settles O52: the reset input is no command, and an ENC ends with OK. -/
theorem anOutcomeOtherThanOkChangesNoRegister : Obligations.AnOutcomeOtherThanOkChangesNoRegister := by
  intro s u w f d rest hp hstep hout
  rcases step_registers hstep with hregs | ⟨_, hreset, -⟩ | ⟨_, _, _, _, m, t, -, -, rfl⟩
  · exact hregs
  · rw [hp] at hreset
    cases hreset
  · exact absurd rfl hout

/-- Settles O53: of the three cases of `step_registers` the first leaves both registers. -/
theorem onlyEncAndResetWriteTheRegisters : Obligations.OnlyEncAndResetWriteTheRegisters := by
  intro s u hstep hchange
  rcases step_registers hstep with ⟨hshadow, hlast⟩ | ⟨rest, hp, -⟩ | ⟨w, f, d, rest, m, t, hp, hw, -⟩
  · rcases hchange with h | h
    · exact absurd hshadow h
    · exact absurd hlast h
  · exact .inl ⟨rest, hp⟩
  · exact .inr ⟨w, f, d, rest, encInstr m t, hp, hw, isEnc_encInstr m t⟩

end Sys2Proof.Machine
end

section
/-! The obligations on single steps (spec/20_memory.md, spec/60_exceptions.md, spec/70_reset_and_hazards.md). -/

namespace Sys2Proof.Machine

/-- Settles O7: one case for each kind of request. -/
theorem everyStepGoesOn : Obligations.EveryStepGoesOn := state_goes

/-- Settles O54: a command that is no ENC computes its results from the operand ports alone. -/
theorem onlyEncRevealsTheRegisters : Obligations.OnlyEncRevealsTheRegisters := by
  intro s s' u u' w f d rest rest' hp hp' hw hstep hstep'
  cases hd : decode w with
  | error r =>
    rw [step_of_decode_error hp hd] at hstep
    rw [step_of_decode_error hp' hd] at hstep'
    cases hstep
    cases hstep'
    rfl
  | ok i =>
    obtain ⟨p, hexec⟩ := exec_of_not_isEnc (hw i hd) f d
    rw [step_of_decode_ok hp hd, hexec _ rfl rfl] at hstep
    rw [step_of_decode_ok hp' hd, hexec _ rfl rfl] at hstep'
    cases hstep
    cases hstep'
    rfl

/-- Settles O21: such a command drives the result ports. -/
theorem decTxpRxpChangeOnlyTheResultPorts : Obligations.DecTxpRxpChangeOnlyTheResultPorts := by
  intro i s u hi hu
  obtain ⟨p, rfl⟩ := eq_drive_of_not_isEnc hi hu
  rfl

/-- Settles O1: the three fields as `State.reset` sets them. -/
theorem resetLeavesFrameResetAndOff : Obligations.ResetLeavesFrameResetAndOff :=
  ⟨reset_shadow, reset_lastMode, reset_ports⟩

/-- Settles O2: the step on the reset input is `resetBlock`. -/
theorem resetRequestRestoresTheRegisters : Obligations.ResetRequestRestoresTheRegisters :=
  fun _ _ hp => step_reset hp

/-- Settles O3: the step on a word that decodes is `exec` on the presented operands. -/
theorem stepRunsTheDecodedCommand : Obligations.StepRunsTheDecodedCommand :=
  fun _ _ _ _ _ _ hp hw => step_of_decode_ok hp hw

/-- Settles O4: the placed word is the next request, with the operand ports as they stand. -/
theorem placedWordIsExecutedNext : Obligations.PlacedWordIsExecutedNext := by
  intro s nbits w i h
  exact step_of_decode_ok (placeCommand_pending _ s) (decode_of_decodeTableWord h)

/-- Settles O5: the step on a word that the decoder refuses is `refuseCommand` on the presented operands. -/
theorem reservedWordIsRefusedAndTheMachineGoesOn : Obligations.ReservedWordIsRefusedAndTheMachineGoesOn :=
  fun _ _ _ _ _ _ hp hw => step_of_decode_error hp hw

/-- Settles O6: with no request the step answers its own state. -/
theorem idleStepHoldsEverything : Obligations.IdleStepHoldsEverything := fun _ hp => step_idle hp

/-- Settles O31: SHADOW is `FRAME_RESET` and the ports are empty. -/
theorem resetMeetsTheThreeInvariants : Obligations.ResetMeetsTheThreeInvariants :=
  ⟨fun _ _ => rfl, .inl reset_shadow, .empty⟩

end Sys2Proof.Machine
end

section
/-! SUPPORT. The tolerance test (spec/00_scope.md rule R17), and RXP as one run of the checks `checkAt` in index order:
where it ends early the first failure is there, and where it does not every check passes (spec/43_pulse_rx.md rules R141
to R145). -/

namespace Sys2Proof.Machine

/-- The window is the distance, though subtraction on durations stops at 0 (R17). -/
theorem accepts_iff_natAbs (c : Cfg) (a e : Nat) :
    c.accepts a e = true ↔ ((a : Int) - (e : Int)).natAbs ≤ c.tol e := by
  rw [Cfg.accepts_iff]
  omega

theorem accepts_own_constant (c : Cfg) (e : Nat) : c.accepts e e = true := by
  rw [accepts_iff_natAbs, Int.sub_self]
  exact Nat.zero_le _

/-- The check of RXP at index `i` as a step that raises what `checkAt` finds. -/
def checkStep (c : Cfg) (d : List Nat) (i : Nat) : Except Failure Unit :=
  match checkAt c d i with
  | none => .ok ()
  | some why => .error ⟨why, i⟩

/-- Every check below index `i` passes. -/
def PassBelow (c : Cfg) (d : List Nat) (i : Nat) : Prop :=
  ∀ j, j < i → checkAt c d j = none

/-- `e` is the first failure among the checks 0..98 (R141, R161). -/
structure FirstFailure (c : Cfg) (d : List Nat) (e : Failure) : Prop where
  index_le : e.index ≤ 98
  below : PassBelow c d e.index
  fails : checkAt c d e.index = some e.why

/-- The bit that the space of slot `k` carries (R145). -/
def slotBit (c : Cfg) (d : List Nat) (k : Nat) : Bool :=
  c.accepts ((d[3 + 2 * k]?).getD 0) c.tOneSpace

theorem passBelow_zero (c : Cfg) (d : List Nat) : PassBelow c d 0 := fun j hj => absurd hj (Nat.not_lt_zero j)

theorem PassBelow.succ {c : Cfg} {d : List Nat} {i : Nat} (h : PassBelow c d i) (hi : checkAt c d i = none) :
    PassBelow c d (i + 1) := by
  intro j hj
  rcases Nat.lt_succ_iff_lt_or_eq.mp hj with hlt | rfl
  · exact h j hlt
  · exact hi

/-- A check that passes lets the rest run. -/
theorem checkStep_bind_ok {c : Cfg} {d : List Nat} {i : Nat} {α : Type} {x : Except Failure α} {a : α}
    (hpass : PassBelow c d i) (h : (checkStep c d i >>= fun _ => x) = .ok a) :
    PassBelow c d (i + 1) ∧ x = .ok a := by
  unfold checkStep at h
  cases hi : checkAt c d i with
  | none =>
    rw [hi] at h
    exact ⟨hpass.succ hi, h⟩
  | some why =>
    rw [hi] at h
    cases h

/-- Where a check comes first, the run fails with that check, or the check passes and the rest fails. -/
theorem checkStep_bind_error {c : Cfg} {d : List Nat} {i : Nat} {α : Type} {x : Except Failure α} {e : Failure}
    (hle : i ≤ 98) (hpass : PassBelow c d i) (h : (checkStep c d i >>= fun _ => x) = .error e) :
    FirstFailure c d e ∨ PassBelow c d (i + 1) ∧ x = .error e := by
  unfold checkStep at h
  cases hi : checkAt c d i with
  | none =>
    rw [hi] at h
    exact .inr ⟨hpass.succ hi, h⟩
  | some why =>
    rw [hi] at h
    cases h
    exact .inl ⟨hle, hpass, hi⟩

/-- Where the list ends the check finds just that (R141). -/
theorem checkAt_of_end {d : List Nat} {i : Nat} (c : Cfg) (h : d[i]? = none) : checkAt c d i = some .short := by
  rw [checkAt, h]

/-- A test against one constant is the check at its index when `checkAt` makes that test there. -/
theorem needMatch_eq_checkStep {c : Cfg} {d : List Nat} {i e : Nat} {why : NoMatch}
    (h : ∀ a, d[i]? = some a → checkAt c d i = if c.accepts a e then none else some why) :
    needMatch c d i e why = checkStep c d i := by
  cases hget : d[i]? with
  | none => rw [needMatch, checkStep, checkAt_of_end c hget, hget]
  | some a =>
    rw [needMatch, checkStep, h a hget, hget]
    cases ha : c.accepts a e <;> simp [ha]

theorem needMatch_headerMark (c : Cfg) (d : List Nat) :
    needMatch c d 0 c.tHdrMark .headerMark = checkStep c d 0 :=
  needMatch_eq_checkStep fun a h => by rw [checkAt, h]; rfl

theorem needMatch_headerSpace (c : Cfg) (d : List Nat) :
    needMatch c d 1 c.tHdrSpace .headerSpace = checkStep c d 1 :=
  needMatch_eq_checkStep fun a h => by rw [checkAt, h]; rfl

theorem needMatch_footerMark (c : Cfg) (d : List Nat) :
    needMatch c d 98 c.tFtrMark .footerMark = checkStep c d 98 :=
  needMatch_eq_checkStep fun a h => by rw [checkAt, h]; rfl

theorem needMatch_bitMark (c : Cfg) (d : List Nat) {k : Nat} (hk : k < 48) :
    needMatch c d (2 + 2 * k) c.tBitMark .bitMark = checkStep c d (2 + 2 * k) := by
  have hstart : ¬ 2 + 2 * k = 0 := by omega
  have hheader : ¬ 2 + 2 * k = 1 := by omega
  have hfooter : ¬ 2 + 2 * k = 98 := by omega
  have heven : (2 + 2 * k) % 2 = 0 := by omega
  refine needMatch_eq_checkStep fun a h => ?_
  simp only [checkAt, h, if_neg hstart, if_neg hheader, if_neg hfooter, if_pos heven]

/-- The check of a space, when the list reaches it (R141, R145). -/
theorem checkAt_space {d : List Nat} {k a : Nat} (c : Cfg) (h : d[3 + 2 * k]? = some a) :
    checkAt c d (3 + 2 * k)
      = if c.accepts a c.tOneSpace then none
        else if c.accepts a c.tZeroSpace then none else some .bitSpace := by
  have hstart : ¬ 3 + 2 * k = 0 := by omega
  have hheader : ¬ 3 + 2 * k = 1 := by omega
  have hfooter : ¬ 3 + 2 * k = 98 := by omega
  have hodd : ¬ (3 + 2 * k) % 2 = 0 := by omega
  simp only [checkAt, h, if_neg hstart, if_neg hheader, if_neg hfooter, if_neg hodd]

theorem slotBit_of_getElem? {d : List Nat} {k a : Nat} (c : Cfg) (h : d[3 + 2 * k]? = some a) :
    slotBit c d k = c.accepts a c.tOneSpace := by
  rw [slotBit, h, Option.getD_some]

theorem needBit_eq (c : Cfg) (d : List Nat) (k : Nat) :
    needBit c d (3 + 2 * k) = checkStep c d (3 + 2 * k) >>= fun _ => .ok (slotBit c d k) := by
  cases hget : d[3 + 2 * k]? with
  | none =>
    rw [needBit, checkStep, checkAt_of_end c hget, hget]
    rfl
  | some a =>
    rw [needBit, checkStep, checkAt_space c hget, slotBit_of_getElem? c hget, hget]
    cases h1 : c.accepts a c.tOneSpace <;> cases h0 : c.accepts a c.tZeroSpace <;> simp [h1, h0] <;> rfl

/-- One slot of the loop is two checks and one bit (R141). -/
theorem rxSlots_succ (c : Cfg) (d : List Nat) (n : Nat) {k : Nat} (hk : k < 48) (f : Nat) :
    rxSlots c d (n + 1) k f
      = checkStep c d (2 + 2 * k) >>= fun _ => checkStep c d (3 + 2 * k) >>= fun _ =>
          rxSlots c d n (k + 1) (2 * f + (slotBit c d k).toNat) := by
  rw [rxSlots, needMatch_bitMark c d hk, needBit_eq]
  cases checkStep c d (2 + 2 * k) with
  | error e => rfl
  | ok _ => cases checkStep c d (3 + 2 * k) <;> rfl

/-- A slot that goes well has passed its two checks, and the loop goes on with its bit. -/
theorem rxSlots_succ_ok {c : Cfg} {d : List Nat} {n k f g : Nat} (hk : k < 48) (hpass : PassBelow c d (2 + 2 * k))
    (h : rxSlots c d (n + 1) k f = .ok g) :
    PassBelow c d (2 + 2 * (k + 1)) ∧ rxSlots c d n (k + 1) (2 * f + (slotBit c d k).toNat) = .ok g := by
  rw [rxSlots_succ c d n hk] at h
  obtain ⟨hmark, h⟩ := checkStep_bind_ok hpass h
  rw [show 2 + 2 * k + 1 = 3 + 2 * k by omega] at hmark
  obtain ⟨hspace, h⟩ := checkStep_bind_ok hmark h
  rw [show 3 + 2 * k + 1 = 2 + 2 * (k + 1) by omega] at hspace
  exact ⟨hspace, h⟩

/-- A loop that fails has met the first failure. -/
theorem rxSlots_error {c : Cfg} {d : List Nat} {n k f : Nat} {e : Failure} (hk : k + n ≤ 48)
    (hpass : PassBelow c d (2 + 2 * k)) (h : rxSlots c d n k f = .error e) : FirstFailure c d e := by
  induction n generalizing k f with
  | zero => cases h
  | succ n ih =>
    rw [rxSlots_succ c d n (by omega)] at h
    obtain hfirst | ⟨hmark, h⟩ := checkStep_bind_error (by omega) hpass h
    · exact hfirst
    rw [show 2 + 2 * k + 1 = 3 + 2 * k by omega] at hmark
    obtain hfirst | ⟨hspace, h⟩ := checkStep_bind_error (by omega) hmark h
    · exact hfirst
    rw [show 3 + 2 * k + 1 = 2 + 2 * (k + 1) by omega] at hspace
    exact ih (by omega) hspace h

/-- A loop that ends well has passed every check of its slots. -/
theorem rxSlots_ok_passBelow {c : Cfg} {d : List Nat} {n k f g : Nat} (hk : k + n ≤ 48)
    (hpass : PassBelow c d (2 + 2 * k)) (h : rxSlots c d n k f = .ok g) : PassBelow c d (2 + 2 * (k + n)) := by
  induction n generalizing k f with
  | zero => exact hpass
  | succ n ih =>
    obtain ⟨hnext, h⟩ := rxSlots_succ_ok (by omega) hpass h
    rw [show k + (n + 1) = k + 1 + n by omega]
    exact ih (by omega) hnext h

/-- The loop accumulates the slots' bits below what it started from, the first slot highest (R143). -/
theorem rxSlots_ok_testBit {c : Cfg} {d : List Nat} {n k f g : Nat} (hk : k + n ≤ 48)
    (hpass : PassBelow c d (2 + 2 * k)) (h : rxSlots c d n k f = .ok g) (j : Nat) :
    g.testBit j = if j < n then slotBit c d (k + n - 1 - j) else f.testBit (j - n) := by
  induction n generalizing k f with
  | zero =>
    cases h
    rfl
  | succ n ih =>
    obtain ⟨hnext, h⟩ := rxSlots_succ_ok (by omega) hpass h
    rw [ih (by omega) hnext h]
    rcases Nat.lt_trichotomy j n with hlt | rfl | hgt
    · rw [if_pos hlt, if_pos (by omega), show k + 1 + n - 1 - j = k + (n + 1) - 1 - j by omega]
    · rw [if_neg (by omega), if_pos (by omega), Nat.sub_self, show k + (j + 1) - 1 - j = k by omega]
      cases slotBit c d k <;> simp
    · rw [if_neg (by omega), if_neg (by omega), show j - n = j - (n + 1) + 1 by omega, Nat.testBit_succ]
      cases slotBit c d k <;> simp [Nat.mul_add_div]

/-- RXP as its checks in index order (R141). -/
theorem fromPulses_eq (c : Cfg) (d : List Nat) :
    fromPulses c d
      = checkStep c d 0 >>= fun _ => checkStep c d 1 >>= fun _ => rxSlots c d 48 0 0 >>= fun g =>
          checkStep c d 98 >>= fun _ => .ok (BitVec.ofNat 48 g) := by
  rw [fromPulses, needMatch_headerMark, needMatch_headerSpace, needMatch_footerMark]
  rfl

/-- RXP that fails raises the first failure. -/
theorem firstFailure_of_fromPulses {c : Cfg} {d : List Nat} {e : Failure} (h : fromPulses c d = .error e) :
    FirstFailure c d e := by
  rw [fromPulses_eq] at h
  obtain hfirst | ⟨h0, h⟩ := checkStep_bind_error (by omega) (passBelow_zero c d) h
  · exact hfirst
  obtain hfirst | ⟨h1, h⟩ := checkStep_bind_error (by omega) h0 h
  · exact hfirst
  cases hslots : rxSlots c d 48 0 0 with
  | error e' =>
    rw [hslots] at h
    cases h
    exact rxSlots_error (by omega) h1 hslots
  | ok g =>
    rw [hslots] at h
    obtain hfirst | ⟨-, h⟩ := checkStep_bind_error (by omega) (rxSlots_ok_passBelow (by omega) h1 hslots) h
    · exact hfirst
    cases h

/-- RXP that matches has passed all 99 checks, and slot `k` gives bit `47 - k` (R143). -/
theorem passBelow_of_fromPulses {c : Cfg} {d : List Nat} {f : Frame} (h : fromPulses c d = .ok f) :
    PassBelow c d 99 ∧ ∀ k, k < 48 → f.getLsbD (47 - k) = slotBit c d k := by
  rw [fromPulses_eq] at h
  obtain ⟨h0, h⟩ := checkStep_bind_ok (passBelow_zero c d) h
  obtain ⟨h1, h⟩ := checkStep_bind_ok h0 h
  cases hslots : rxSlots c d 48 0 0 with
  | error e =>
    rw [hslots] at h
    cases h
  | ok g =>
    rw [hslots] at h
    obtain ⟨h98, h⟩ := checkStep_bind_ok (rxSlots_ok_passBelow (by omega) h1 hslots) h
    cases h
    refine ⟨h98, fun k hk => ?_⟩
    rw [BitVec.getLsbD_ofNat, rxSlots_ok_testBit (by omega) h1 hslots, if_pos (by omega),
      decide_eq_true (by omega), Bool.true_and, show 0 + 48 - 1 - (47 - k) = k by omega]

/-- There is one first failure. -/
theorem FirstFailure.eq {c : Cfg} {d : List Nat} {e e' : Failure} (h : FirstFailure c d e)
    (h' : FirstFailure c d e') : e = e' := by
  obtain ⟨why, i⟩ := e
  obtain ⟨why', i'⟩ := e'
  obtain ⟨-, hbelow, hfails⟩ := h
  obtain ⟨-, hbelow', hfails'⟩ := h'
  dsimp only at *
  rcases Nat.lt_trichotomy i i' with hlt | rfl | hgt
  · rw [hbelow' i hlt] at hfails
    cases hfails
  · rw [hfails] at hfails'
    cases hfails'
    rfl
  · rw [hbelow i' hgt] at hfails'
    cases hfails'

theorem fromPulses_eq_error {c : Cfg} {d : List Nat} {e : Failure} (h : FirstFailure c d e) :
    fromPulses c d = .error e := by
  cases hr : fromPulses c d with
  | error e' => rw [h.eq (firstFailure_of_fromPulses hr)]
  | ok f =>
    have hnone := (passBelow_of_fromPulses hr).1 e.index (Nat.lt_succ_of_le h.index_le)
    rw [h.fails] at hnone
    cases hnone

theorem fromPulses_matches {c : Cfg} {d : List Nat} (h : PassBelow c d 99) : ∃ f, fromPulses c d = .ok f := by
  cases hr : fromPulses c d with
  | ok f => exact ⟨f, rfl⟩
  | error e =>
    have hfirst := firstFailure_of_fromPulses hr
    have hnone := h e.index (Nat.lt_succ_of_le hfirst.index_le)
    rw [hfirst.fails] at hnone
    cases hnone

theorem rxpPorts_of_ok {c : Cfg} {d : List Nat} {f : Frame} (h : fromPulses c d = .ok f) :
    rxpPorts c d = { outcome := some .ok, info := some 0#7, fout := some f, matched := some true } := by
  rw [rxpPorts, h]

theorem rxpPorts_of_error {c : Cfg} {d : List Nat} {e : Failure} (h : fromPulses c d = .error e) :
    rxpPorts c d = raiseNoMatch e.why e.index := by
  rw [rxpPorts, h]

end Sys2Proof.Machine
end

section
/-! SUPPORT. The shapes of the result ports after each command (spec/30_encoding.md rule R67). -/

namespace Sys2Proof.Machine

theorem encPorts_shaped {f : Frame} (h : checksumValid f = true) : (encPorts f).Shaped := .enc f h

theorem diagHi_lt (f : Frame) : (diagHi f).toNat < 2 ^ 16 := by
  rw [diagHi, BitVec.zeroExtend_eq_setWidth, BitVec.toNat_setWidth_of_le (by decide)]
  exact (f.extractLsb' 32 16).isLt

theorem decPorts_shaped (c : Cfg) (f : Frame) : (decPorts c f).Shaped :=
  .dec (extractFields c f) (checksumValid f) (diagHi f) (diagLo f) (diagHi_lt f)

theorem txpPorts_shaped (c : Cfg) (f : Frame) : (txpPorts c f).Shaped := .txp (toPulses c f) (toPulses_length c f)

/-- An index up to 98 fits the seven bits of the info port. -/
theorem raiseNoMatch_shaped (why : NoMatch) {i : Nat} (h : i ≤ 98) : (raiseNoMatch why i).Shaped := by
  refine .noMatch why (BitVec.ofNat 7 i) ?_
  rw [BitVec.toNat_ofNat, Nat.mod_eq_of_lt (by omega)]
  exact h

theorem rxpPorts_shaped (c : Cfg) (d : List Nat) : (rxpPorts c d).Shaped := by
  cases h : fromPulses c d with
  | ok f =>
    rw [rxpPorts_of_ok h]
    exact .matched f
  | error e =>
    rw [rxpPorts_of_error h]
    exact raiseNoMatch_shaped e.why (firstFailure_of_fromPulses h).index_le

/-- Every command leaves the result ports in a shape of its own. -/
theorem exec_portsShaped {i : Instr} {s u : State} (h : exec i s = .next u) : u.PortsShaped := by
  rcases instr_cases i with ⟨m, t, rfl⟩ | rfl | rfl | rfl
  · rw [exec_encInstr] at h
    cases h
    exact encPorts_shaped (checksumValid_encodeFrame _ _ _ _ _)
  · rw [exec_dec] at h
    cases h
    exact decPorts_shaped _ _
  · rw [exec_txp] at h
    cases h
    exact txpPorts_shaped _ _
  · rw [exec_rxp] at h
    cases h
    exact rxpPorts_shaped _ _

end Sys2Proof.Machine
end

section
/-! SUPPORT. What was sent passes every check of RXP (spec/43_pulse_rx.md rule R147). -/

namespace Sys2Proof.Machine

/-- Each of the first 99 durations of `d` is within the window of what TXP emits for `f` at that index. -/
def WithinSent (c : Cfg) (f : Frame) (d : List Nat) : Prop :=
  ∀ i a e, i < 99 → d[i]? = some a → (flat (toPulses c f))[i]? = some e → c.accepts a e = true

/-- A list reaches the duration that the sequence has at an index, and it fits. -/
theorem WithinSent.exists_accepted {c : Cfg} {f : Frame} {d : List Nat} (h : WithinSent c f d)
    (hlen : 99 ≤ d.length) {i e : Nat} (hi : i < 99) (he : (flat (toPulses c f))[i]? = some e) :
    ∃ a, d[i]? = some a ∧ c.accepts a e = true := by
  have hget : d[i]? = some d[i] := List.getElem?_eq_getElem (by omega)
  exact ⟨d[i], hget, h i d[i] e hi hget he⟩

theorem checkAt_none_of_checkStep {c : Cfg} {d : List Nat} {i : Nat} (h : checkStep c d i = .ok ()) :
    checkAt c d i = none := by
  unfold checkStep at h
  split at h
  · assumption
  · cases h

/-- The index of a check is one of the two of the header, the footer mark's, or one of the two of a slot (R141). -/
theorem check_index_cases {i : Nat} (h : i < 99) :
    i = 0 ∨ i = 1 ∨ i = 98 ∨ (∃ k, k < 48 ∧ i = 2 + 2 * k) ∨ ∃ k, k < 48 ∧ i = 3 + 2 * k := by
  by_cases hheader : i < 2
  · omega
  · by_cases hfooter : i = 98
    · exact .inr (.inr (.inl hfooter))
    · rcases Nat.mod_two_eq_zero_or_one i with heven | hodd
      · exact .inr (.inr (.inr (.inl ⟨(i - 2) / 2, by omega, by omega⟩)))
      · exact .inr (.inr (.inr (.inr ⟨(i - 3) / 2, by omega, by omega⟩)))

/-- A space that fits what a slot of bit `b` emits passes its check and is read as `b`: no duration fits both spaces
(WF7 of R7). -/
theorem space_of_sent {c : Cfg} (hwf : c.WF) {d : List Nat} {k a : Nat} {b : Bool} (hget : d[3 + 2 * k]? = some a)
    (ha : c.accepts a (slotPair c b).space = true) :
    checkAt c d (3 + 2 * k) = none ∧ slotBit c d k = b := by
  rw [checkAt_space c hget, slotBit_of_getElem? c hget]
  cases b with
  | true =>
    have hone : c.accepts a c.tOneSpace = true := ha
    exact ⟨if_pos hone, hone⟩
  | false =>
    have hzero : c.accepts a c.tZeroSpace = true := ha
    have hone : ¬ c.accepts a c.tOneSpace = true := fun hone => hwf.wf7 a ⟨hone, hzero⟩
    rw [if_neg hone, if_pos hzero]
    exact ⟨rfl, Bool.eq_false_iff.mpr hone⟩

theorem WithinSent.passBelow {c : Cfg} (hwf : c.WF) {f : Frame} {d : List Nat} (h : WithinSent c f d)
    (hlen : 99 ≤ d.length) : PassBelow c d 99 := by
  intro i hi
  rcases check_index_cases hi with rfl | rfl | rfl | ⟨k, hk, rfl⟩ | ⟨k, hk, rfl⟩
  · obtain ⟨a, hget, ha⟩ := h.exists_accepted hlen hi (sent_header c f).1
    exact checkAt_none_of_checkStep ((needMatch_headerMark c d).symm.trans (needMatch_ok hget ha))
  · obtain ⟨a, hget, ha⟩ := h.exists_accepted hlen hi (sent_header c f).2
    exact checkAt_none_of_checkStep ((needMatch_headerSpace c d).symm.trans (needMatch_ok hget ha))
  · obtain ⟨a, hget, ha⟩ := h.exists_accepted hlen hi (sent_footer c f).1
    exact checkAt_none_of_checkStep ((needMatch_footerMark c d).symm.trans (needMatch_ok hget ha))
  · obtain ⟨a, hget, ha⟩ := h.exists_accepted hlen hi (sent_slot c f hk).1
    exact checkAt_none_of_checkStep ((needMatch_bitMark c d hk).symm.trans (needMatch_ok hget ha))
  · obtain ⟨a, hget, ha⟩ := h.exists_accepted hlen hi (sent_slot c f hk).2
    exact (space_of_sent hwf hget ha).1

theorem WithinSent.slotBit_eq {c : Cfg} (hwf : c.WF) {f : Frame} {d : List Nat} (h : WithinSent c f d)
    (hlen : 99 ≤ d.length) {k : Nat} (hk : k < 48) : slotBit c d k = f.getLsbD (47 - k) := by
  obtain ⟨a, hget, ha⟩ := h.exists_accepted hlen (by omega) (sent_slot c f hk).2
  exact (space_of_sent hwf hget ha).2

/-- RXP recovers a frame from any list within the windows of what TXP emits for it (R147). -/
theorem fromPulses_of_withinSent {c : Cfg} (hwf : c.WF) {f : Frame} {d : List Nat} (h : WithinSent c f d)
    (hlen : 99 ≤ d.length) : fromPulses c d = .ok f := by
  obtain ⟨g, hg⟩ := fromPulses_matches (h.passBelow hwf hlen)
  have hbits := (passBelow_of_fromPulses hg).2
  suffices hgf : g = f by rw [hg, hgf]
  apply BitVec.eq_of_getLsbD_eq
  intro j hj
  have hslot := (hbits (47 - j) (by omega)).trans (h.slotBit_eq hwf hlen (by omega))
  rwa [show 47 - (47 - j) = j by omega] at hslot

/-- The undisturbed list is within its own windows. -/
theorem fromPulses_flat_toPulses {c : Cfg} (hwf : c.WF) (f : Frame) : fromPulses c (flat (toPulses c f)) = .ok f := by
  refine fromPulses_of_withinSent hwf (fun i a e _ ha he => ?_) ?_
  · rw [ha] at he
    cases he
    exact accepts_own_constant c a
  · rw [flat_length, toPulses_length]
    decide

end Sys2Proof.Machine
end

section
/-! The obligations on RXP and the shape of the result ports (spec/43_pulse_rx.md, spec/30_encoding.md). -/

namespace Sys2Proof.Machine

/-- Settles O30: the reset input empties the ports, a refused word reports its outcome alone, and every command has its
own shape. -/
theorem everyStepKeepsTheResultPortsShaped : Obligations.EveryStepKeepsTheResultPortsShaped := by
  intro s u hs hstep
  rcases step_cases hstep with ⟨-, rfl⟩ | ⟨rest, -, rfl⟩ | ⟨w, f, d, rest, -, ⟨r, -, rfl⟩ | ⟨i, -, hu⟩⟩
  · exact hs
  · exact .empty
  · exact .illegal
  · exact exec_portsShaped hu

/-- Settles O44: the first failure is unique, so it is the one RXP raises; with none RXP matches. -/
theorem rxpReportsTheFirstFailureOrTheFrame : Obligations.RxpReportsTheFirstFailureOrTheFrame := by
  intro s
  refine ⟨fun i why hi hbelow hfails => ?_, fun hpass => ?_⟩
  · have hfirst : FirstFailure Config.cfg s.pin ⟨why, i⟩ := ⟨hi, hbelow, hfails⟩
    rw [exec_rxp, rxpPorts_of_error (fromPulses_eq_error hfirst)]
    rfl
  · have hall : PassBelow Config.cfg s.pin 99 := fun i hi => hpass i (Nat.le_of_lt_succ hi)
    obtain ⟨f, hf⟩ := fromPulses_matches hall
    exact ⟨f, by rw [exec_rxp, rxpPorts_of_ok hf], (passBelow_of_fromPulses hf).2⟩

/-- Settles O47: each check passes on the duration it reads, and each slot gives back its bit. -/
theorem receivingWhatWasSentRecoversTheFrame : Obligations.ReceivingWhatWasSentRecoversTheFrame :=
  fun _ hwf _ _ hlen h => fromPulses_of_withinSent hwf h hlen

/-- Settles O45: `matched` says whether there is a frame. -/
theorem rxpAlwaysReturnsAResult : Obligations.RxpAlwaysReturnsAResult :=
  fun s => ⟨rxpPorts Config.cfg s.pin, _, exec_rxp s, rxpPorts_fout_isSome _ _, rfl⟩

/-- Settles O37: the window as a distance, and the distance of a constant from itself is 0. -/
theorem matchIsWithinTheWindow : Obligations.MatchIsWithinTheWindow :=
  fun c a e => ⟨accepts_iff_natAbs c a e, accepts_own_constant c e⟩

end Sys2Proof.Machine
end

section
/-! SUPPORT. The decoder the other way: what a word that decodes looks like, and which words are refused
(spec/30_encoding.md rules R68, R73 and R74). -/

namespace Sys2Proof.Machine

theorem encCommand_eq_ok {w : CmdWord} {i : Instr} (h : encCommand w = .ok i) :
    w.getLsbD 11 = false ∧ ∃ m, modeBits w = m.code.toNat ∧ i = encInstr m (tempOperand w) := by
  unfold encCommand at h
  split at h
  · cases h
  · refine ⟨Bool.eq_false_iff.mpr ‹_›, ?_⟩
    split at h
    · cases h; exact ⟨.off, ‹_›, rfl⟩
    · cases h; exact ⟨.cool, ‹_›, rfl⟩
    · cases h; exact ⟨.auto, ‹_›, rfl⟩
    · cases h; exact ⟨.dehumidify, ‹_›, rfl⟩
    · cases h; exact ⟨.clean, ‹_›, rfl⟩
    · cases h

theorem bareCommand_eq_ok {w : CmdWord} {i j : Instr} (h : bareCommand w i = .ok j) :
    w.extractLsb' 0 12 = 0#12 ∧ j = i := by
  unfold bareCommand at h
  split at h
  · cases h; exact ⟨‹_›, rfl⟩
  · cases h

/-- A word is its operation and its low twelve bits (R68). -/
theorem cmdWord_eq_op_append (w : CmdWord) : w = w.extractLsb' 12 4 ++ w.extractLsb' 0 12 := by
  rw [BitVec.extractLsb'_append_extractLsb'_eq_extractLsb' (by decide)]
  exact BitVec.extractLsb'_eq_self.symm

theorem eq_append_of_bare {w : CmdWord} {op : BitVec 4} (hop : opBits w = op.toNat) (hlow : w.extractLsb' 0 12 = 0#12) :
    w = op ++ 0#12 := by
  have hop' : w.extractLsb' 12 4 = op := BitVec.eq_of_toNat_eq hop
  rw [← hop', ← hlow]
  exact cmdWord_eq_op_append w

/-- The decoder has an inverse: a word that decodes is one ENC word, or one of the three bare words (R73). -/
theorem encode_of_decode {w : CmdWord} {i : Instr} (h : decode w = .ok i) : i.wellFormed = true ∧ encode i = w := by
  unfold decode at h
  split at h
  · next hop =>
    obtain ⟨hbit, m, hmode, rfl⟩ := encCommand_eq_ok h
    rw [wellFormed_encInstr, encode_encInstr]
    exact ⟨temp_ok_tempOperand w, (eq_encWord_of_fields hop hbit hmode).symm⟩
  · next hop =>
    obtain ⟨hlow, rfl⟩ := bareCommand_eq_ok h
    exact ⟨rfl, (eq_append_of_bare (op := 1#4) hop hlow).symm⟩
  · next hop =>
    obtain ⟨hlow, rfl⟩ := bareCommand_eq_ok h
    exact ⟨rfl, (eq_append_of_bare (op := 2#4) hop hlow).symm⟩
  · next hop =>
    obtain ⟨hlow, rfl⟩ := bareCommand_eq_ok h
    exact ⟨rfl, (eq_append_of_bare (op := 3#4) hop hlow).symm⟩
  · cases h

/-- Every command's word lies in its own row (R73). -/
theorem encode_and_tableMask (i : Instr) : encode i &&& tableMask i = tableMatch i := by
  cases i with
  | encOff t => exact Laws.TableRow.encOff t
  | encCool t => exact Laws.TableRow.encCool t
  | encAuto t => exact Laws.TableRow.encAuto t
  | encDehum t => exact Laws.TableRow.encDehum t
  | encClean t => exact Laws.TableRow.encClean t
  | dec => exact Laws.TableRow.dec
  | txp => exact Laws.TableRow.txp
  | rxp => exact Laws.TableRow.rxp

/-- The mask of the ENC rows keeps the high byte. -/
theorem getLsbD_congr_of_masked {v w : CmdWord} (h : v &&& 0xFF00#16 = w &&& 0xFF00#16) {j : Nat} (hlow : 8 ≤ j)
    (hhigh : j < 16) : v.getLsbD j = w.getLsbD j := by
  have hmask : ∀ j, j < 16 → 8 ≤ j → (0xFF00#16).getLsbD j = true := by decide
  have hbit := congrArg (BitVec.getLsbD · j) h
  simpa only [BitVec.getLsbD_and, hmask j hhigh hlow, Bool.and_true] using hbit

theorem extractLsb'_congr_of_masked {v w : CmdWord} (h : v &&& 0xFF00#16 = w &&& 0xFF00#16) {start len : Nat}
    (hlow : 8 ≤ start) (hhigh : start + len ≤ 16) : v.extractLsb' start len = w.extractLsb' start len := by
  apply BitVec.eq_of_getLsbD_eq
  intro j hj
  rw [BitVec.getLsbD_extractLsb', BitVec.getLsbD_extractLsb', getLsbD_congr_of_masked h (by omega) (by omega)]

/-- A word of a mode's row is that mode's ENC word with the operand in its low byte (R71, R73). -/
theorem decode_of_encRow {w : CmdWord} (m : Mode) (h : w &&& 0xFF00#16 = 0#5 ++ m.code ++ 0#8) :
    decode w = .ok (encInstr m (tempOperand w)) := by
  have hmask : w &&& 0xFF00#16 = encWord m (tempOperand w) &&& 0xFF00#16 :=
    h.trans (Laws.TableRow.encWord_masked m _).symm
  have hop : opBits w = 0 := by
    rw [opBits, extractLsb'_congr_of_masked hmask (by decide) (by decide)]
    exact opBits_encWord m _
  have hbit : w.getLsbD 11 = false := by
    rw [getLsbD_congr_of_masked hmask (by decide) (by decide)]
    exact getLsbD_encWord_bit11 m _
  have hmode : modeBits w = m.code.toNat := by
    rw [modeBits, extractLsb'_congr_of_masked hmask (by decide) (by decide)]
    exact modeBits_encWord m _
  have hw : decode w = decode (encWord m (tempOperand w)) := congrArg decode (eq_encWord_of_fields hop hbit hmode)
  rw [hw, decode_encWord m (temp_ok_tempOperand w)]

/-- A word of a row whose mask is the whole word is the row's word. -/
theorem decode_of_bareRow {w v : CmdWord} {i : Instr} (hv : decode v = .ok i) (h : w &&& 0xFFFF#16 = v) :
    decode w = .ok i := by
  have hw : w &&& 0xFFFF#16 = w := BitVec.and_allOnes
  rw [← hw, h, hv]

theorem encCommand_refuses_iff (w : CmdWord) :
    (∃ r, encCommand w = .error r) ↔ w.getLsbD 11 = true ∨ 5 ≤ modeBits w := by
  cases h : encCommand w with
  | ok i =>
    obtain ⟨hbit, m, hmode, -⟩ := encCommand_eq_ok h
    have hcode : m.code.toNat < 5 := by cases m <;> decide
    simp only [reduceCtorEq, exists_false, false_iff, hbit, Bool.false_eq_true, false_or, not_le]
    omega
  | error r =>
    refine ⟨fun _ => ?_, fun _ => ⟨r, rfl⟩⟩
    cases hbit : w.getLsbD 11 with
    | true => exact .inl rfl
    | false =>
      refine .inr (Nat.le_of_not_lt fun hlt => ?_)
      simp only [encCommand, hbit, Bool.false_eq_true, if_false] at h
      interval_cases modeBits w <;> cases h

theorem bareCommand_refuses_iff (w : CmdWord) (i : Instr) :
    (∃ r, bareCommand w i = .error r) ↔ w.toNat % 2 ^ 12 ≠ 0 := by
  have hlow : w.extractLsb' 0 12 = 0#12 ↔ w.toNat % 2 ^ 12 = 0 := by
    rw [BitVec.toNat_inj.symm, BitVec.extractLsb'_toNat, Nat.shiftRight_zero]
    rfl
  rw [ne_eq, ← hlow, bareCommand]
  split
  · next hzero => simp [hzero]
  · next hne => exact ⟨fun _ => hne, fun _ => ⟨_, rfl⟩⟩

theorem opBits_eq (w : CmdWord) : opBits w = (w >>> 12).toNat := by
  rw [opBits, BitVec.extractLsb'_toNat, BitVec.toNat_ushiftRight]
  have := w.isLt
  omega

theorem modeBits_eq (w : CmdWord) : modeBits w = (w >>> 8).toNat % 8 := by
  rw [modeBits, BitVec.extractLsb'_toNat, BitVec.toNat_ushiftRight]

/-- Bit 11 is one of the twelve that DEC, TXP and RXP leave 0. -/
theorem low_ne_zero_of_bit11 {w : CmdWord} (h : w.getLsbD 11 = true) : w.toNat % 2 ^ 12 ≠ 0 := by
  intro hzero
  have hbit : (w.toNat % 2 ^ 12).testBit 11 = true := by
    rw [Nat.testBit_mod_two_pow, BitVec.testBit_toNat, h]
    rfl
  rw [hzero] at hbit
  cases hbit

/-- The words that the decoder refuses, operation by operation (R74). -/
theorem decode_refuses_iff (w : CmdWord) :
    (∃ r, decode w = .error r) ↔
      4 ≤ opBits w ∨ (opBits w = 0 ∧ (w.getLsbD 11 = true ∨ 5 ≤ modeBits w))
        ∨ (1 ≤ opBits w ∧ opBits w ≤ 3 ∧ w.toNat % 2 ^ 12 ≠ 0) := by
  unfold decode
  split
  · next hop => simp [hop, encCommand_refuses_iff]
  · next hop => simp [hop, bareCommand_refuses_iff]
  · next hop => simp [hop, bareCommand_refuses_iff]
  · next hop => simp [hop, bareCommand_refuses_iff]
  · next h0 h1 h2 h3 =>
    have hop : 4 ≤ opBits w := by
      simp only [imp_false] at h0 h1 h2 h3
      omega
    exact ⟨fun _ => .inl hop, fun _ => ⟨.op, rfl⟩⟩

end Sys2Proof.Machine
end

section
/-! The obligations on the command word (spec/30_encoding.md). -/

namespace Sys2Proof.Machine

/-- Settles O9: the fields of a word that decodes are those of the command's own word. -/
theorem encodeOfDecodeIsTheWord : Obligations.EncodeOfDecodeIsTheWord := fun _ _ h => encode_of_decode h

/-- Settles O10: a word of a row is that row's word; and a word that decodes is in the row of its command. -/
theorem decodeFollowsTheOpcodeTable : Obligations.DecodeFollowsTheOpcodeTable := by
  intro w
  refine ⟨decode_of_encRow .off, decode_of_encRow .cool, decode_of_encRow .auto, decode_of_encRow .dehumidify,
    decode_of_encRow .clean, decode_of_bareRow rfl, decode_of_bareRow rfl, decode_of_bareRow rfl, fun hno => ?_⟩
  cases h : decode w with
  | error r => exact ⟨r, rfl⟩
  | ok i =>
    have hrow := encode_and_tableMask i
    rw [(encode_of_decode h).2] at hrow
    exact absurd hrow (hno i)

/-- Settles O11: `decode_refuses_iff`, and bit 11 counts as an operand bit of DEC, TXP and RXP. -/
theorem reservedWordsAreExactlyThoseOfTheList : Obligations.ReservedWordsAreExactlyThoseOfTheList := by
  intro w
  rw [decode_refuses_iff, ← opBits_eq, ← modeBits_eq]
  constructor
  · rintro (hop | ⟨hop, hbit | hmode⟩ | hbare)
    · exact .inl hop
    · exact .inr (.inl hbit)
    · exact .inr (.inr (.inl ⟨hop, hmode⟩))
    · exact .inr (.inr (.inr hbare))
  · rintro (hop | hbit | ⟨hop, hmode⟩ | hbare)
    · exact .inl hop
    · have hlow := low_ne_zero_of_bit11 hbit
      have hcases : 4 ≤ opBits w ∨ opBits w = 0 ∨ (1 ≤ opBits w ∧ opBits w ≤ 3) := by omega
      rcases hcases with hop | hop | ⟨hpos, hle⟩
      · exact .inl hop
      · exact .inr (.inl ⟨hop, .inl hbit⟩)
      · exact .inr (.inr ⟨hpos, hle, hlow⟩)
    · exact .inr (.inl ⟨hop, .inr hmode⟩)
    · exact .inr (.inr hbare)

/-- Settles O12: fourteen words, evaluated. -/
theorem sampleWordsDecodeAsWritten : Obligations.SampleWordsDecodeAsWritten := by
  unfold Obligations.SampleWordsDecodeAsWritten
  decide

/-- Settles O55: nine codes, evaluated. -/
theorem outcomeCodesHaveTheirNumbers : Obligations.OutcomeCodesHaveTheirNumbers := by
  unfold Obligations.OutcomeCodesHaveTheirNumbers
  decide

end Sys2Proof.Machine
end

section
/-! SUPPORT. What each named field holds after an ENC, the control mode's table, and the target seen through Clamp
(spec/40_framecodec_encode.md rules R91 to R95, spec/00_scope.md rule R16). -/

namespace Sys2Proof.Machine

/-- A field above byte 0 and apart from TEMP and COUNT, which an ENC writes last. -/
structure Clear (c : Cfg) (F : Field) : Prop where
  aboveChecksum : 8 ≤ F.shift
  temp : c.temp.Disjoint F
  count : c.count.Disjoint F

theorem clear_power {c : Cfg} (h : c.WF) : Clear c c.power := by
  obtain ⟨-, -, -, htemp, hcount, -⟩ := disjoint_pairs h
  exact ⟨(field_bounds h (power_mem c)).1, disjoint_swap htemp, disjoint_swap hcount⟩

theorem clear_mode {c : Cfg} (h : c.WF) : Clear c c.mode := by
  obtain ⟨-, -, -, -, -, -, -, htemp, hcount, -⟩ := disjoint_pairs h
  exact ⟨(field_bounds h (mode_mem c)).1, disjoint_swap htemp, disjoint_swap hcount⟩

theorem clear_autofan {c : Cfg} (h : c.WF) : Clear c c.autofan := by
  obtain ⟨-, -, -, -, -, -, -, -, -, -, htemp, hcount, -⟩ := disjoint_pairs h
  exact ⟨(field_bounds h (autofan_mem c)).1, disjoint_swap htemp, disjoint_swap hcount⟩

theorem clear_fan {c : Cfg} (h : c.WF) : Clear c c.fan := by
  obtain ⟨-, -, -, -, -, -, -, -, -, -, -, -, htemp, hcount, -⟩ := disjoint_pairs h
  exact ⟨(field_bounds h (fan_mem c)).1, disjoint_swap htemp, disjoint_swap hcount⟩

theorem encodeFrame_eq_finishFrame (c : Cfg) (m : Mode) (t : Int) (shadow : Frame) (last : Mode) :
    encodeFrame c m t shadow last
      = finishFrame c (tempValue c (controlMode m last) t)
          (writeModeRow c (modeTable c (controlMode m last)) (setField shadow c.power (powerValue m))) := rfl

/-- TEMP, COUNT and the checksum are written last and touch no other field. -/
theorem getField_finishFrame {c : Cfg} (h : c.WF) {F : Field} (hF : Clear c F) (tv : Nat) (f : Frame) :
    getField (finishFrame c tv f) F = getField f F :=
  calc getField (finishFrame c tv f) F
      = getField (stepCount c (setField f c.temp tv)) F := getField_stampChecksum hF.aboveChecksum _
    _ = getField (setField f c.temp tv) F :=
        getField_setField_disjoint _ _ _ _ (field_bounds h (count_mem c)).2 hF.count
    _ = getField f F := getField_setField_disjoint _ _ _ _ (field_bounds h (temp_mem c)).2 hF.temp

/-- The counter steps from what COUNT held before TEMP was written (R95). -/
theorem getField_finishFrame_count {c : Cfg} (h : c.WF) (tv : Nat) (f : Frame) :
    getField (finishFrame c tv f) c.count = (getField f c.count + 1) % 2 ^ c.wCount := by
  obtain ⟨-, -, -, -, -, -, -, -, -, -, -, -, -, -, htempCount⟩ := disjoint_pairs h
  have hcount := field_bounds h (count_mem c)
  calc getField (finishFrame c tv f) c.count
      = getField (stepCount c (setField f c.temp tv)) c.count := getField_stampChecksum hcount.1 _
    _ = (getField (setField f c.temp tv) c.count + 1) % 2 ^ c.wCount % 2 ^ c.wCount :=
        getField_setField_self _ c.count _ hcount.2
    _ = (getField f c.count + 1) % 2 ^ c.wCount := by
        rw [Nat.mod_mod, getField_setField_disjoint _ _ _ _ (field_bounds h (temp_mem c)).2 htempCount]

/-- POWER follows the intent (R95). -/
theorem getField_encodeFrame_power {c : Cfg} (h : c.WF) (m : Mode) (t : Int) (shadow : Frame) (last : Mode) :
    getField (encodeFrame c m t shadow last) c.power = if m = .off then 0 else 1 := by
  obtain ⟨hmode, hautofan, hfan, -⟩ := disjoint_pairs h
  rw [encodeFrame_eq_finishFrame, getField_finishFrame h (clear_power h),
    getField_writeModeRow_disjoint h _ _ _ (disjoint_swap hfan) (disjoint_swap hautofan) (disjoint_swap hmode),
    getField_setField_self _ _ _ (field_bounds h (power_mem c)).2, powerValue]
  split <;> rfl

theorem getField_encodeFrame_temp {c : Cfg} (h : c.WF) (m : Mode) (t : Int) (shadow : Frame) (last : Mode) :
    getField (encodeFrame c m t shadow last) c.temp = tempValue c (controlMode m last) t % 2 ^ c.wTemp := by
  rw [encodeFrame_eq_finishFrame, getField_finishFrame_temp h]

/-- COUNT steps by one, whatever the intent is (R95, R101). -/
theorem getField_encodeFrame_count {c : Cfg} (h : c.WF) (m : Mode) (t : Int) (shadow : Frame) (last : Mode) :
    getField (encodeFrame c m t shadow last) c.count = (getField shadow c.count + 1) % 2 ^ c.wCount := by
  obtain ⟨-, -, -, -, hpower, -, -, -, hmode, -, -, hautofan, -, hfan, -⟩ := disjoint_pairs h
  rw [encodeFrame_eq_finishFrame, getField_finishFrame_count h,
    getField_writeModeRow_disjoint h _ _ _ hfan hautofan hmode,
    getField_setField_disjoint _ _ _ _ (field_bounds h (power_mem c)).2 hpower]

theorem getField_encodeFrame_cks (c : Cfg) (m : Mode) (t : Int) (shadow : Frame) (last : Mode) :
    getField (encodeFrame c m t shadow last) cks = checksum (encodeFrame c m t shadow last) :=
  (beq_iff_eq.mp (checksumValid_encodeFrame c m t shadow last)).symm

/-- With no row of the mode table a field apart from POWER, TEMP and COUNT keeps what SHADOW held (R92). -/
theorem getField_encodeFrame_of_off {c : Cfg} (h : c.WF) {F : Field} (hF : Clear c F) (hpower : c.power.Disjoint F)
    {m last : Mode} (hoff : controlMode m last = .off) (t : Int) (shadow : Frame) :
    getField (encodeFrame c m t shadow last) F = getField shadow F := by
  rw [encodeFrame_eq_finishFrame, hoff, getField_finishFrame h hF]
  exact getField_setField_disjoint _ _ _ _ (field_bounds h (power_mem c)).2 hpower

theorem encodeFrame_off_keeps_row {c : Cfg} (h : c.WF) {m last : Mode} (hoff : controlMode m last = .off) (t : Int)
    (shadow : Frame) :
    getField (encodeFrame c m t shadow last) c.fan = getField shadow c.fan
    ∧ getField (encodeFrame c m t shadow last) c.autofan = getField shadow c.autofan
    ∧ getField (encodeFrame c m t shadow last) c.mode = getField shadow c.mode := by
  obtain ⟨hmode, hautofan, hfan, -⟩ := disjoint_pairs h
  exact ⟨getField_encodeFrame_of_off h (clear_fan h) hfan hoff t shadow,
    getField_encodeFrame_of_off h (clear_autofan h) hautofan hoff t shadow,
    getField_encodeFrame_of_off h (clear_mode h) hmode hoff t shadow⟩

/-- A row of the mode table fits its fields (WF4 of R7). -/
theorem modeTable_fits {c : Cfg} (h : c.WF) {cm : Mode} {r : ModeRow} (hr : modeTable c cm = some r) :
    r.fan < 2 ^ wFan ∧ r.autofan < 2 ^ wAutofan ∧ r.mode < 2 ^ c.wMode := by
  obtain ⟨hcool, hauto, hdehum, hclean⟩ := h.wf4codes
  obtain ⟨hdefault, hmax⟩ := h.wf4fan
  obtain ⟨afCool, afDehum, afClean⟩ := h.wf4autofan
  cases cm <;> cases hr
  · exact ⟨hdefault, afCool, hcool⟩
  · exact ⟨hmax, Nat.one_lt_two, hauto⟩
  · exact ⟨hmax, afDehum, hdehum⟩
  · exact ⟨hdefault, afClean, hclean⟩

/-- After a row is written its three fields hold it: they are apart, and it fits them. -/
theorem getField_writeModeRow {c : Cfg} (h : c.WF) {cm : Mode} {r : ModeRow} (hr : modeTable c cm = some r)
    (f : Frame) :
    getField (writeModeRow c (modeTable c cm) f) c.fan = r.fan
    ∧ getField (writeModeRow c (modeTable c cm) f) c.autofan = r.autofan
    ∧ getField (writeModeRow c (modeTable c cm) f) c.mode = r.mode := by
  obtain ⟨hfan, hautofan, hmode⟩ := modeTable_fits h hr
  obtain ⟨-, -, -, -, -, modeAutofan, modeFan, -, -, autofanFan, -⟩ := disjoint_pairs h
  have fanIn := (field_bounds h (fan_mem c)).2
  have autofanIn := (field_bounds h (autofan_mem c)).2
  have modeIn := (field_bounds h (mode_mem c)).2
  simp only [hr, writeModeRow]
  refine ⟨?_, ?_, ?_⟩
  · rw [getField_setField_disjoint _ _ _ _ modeIn modeFan, getField_setField_disjoint _ _ _ _ autofanIn autofanFan,
      getField_setField_self _ _ _ fanIn]
    exact Nat.mod_eq_of_lt hfan
  · rw [getField_setField_disjoint _ _ _ _ modeIn modeAutofan, getField_setField_self _ _ _ autofanIn]
    exact Nat.mod_eq_of_lt hautofan
  · rw [getField_setField_self _ _ _ modeIn]
    exact Nat.mod_eq_of_lt hmode

/-- FAN, AUTOFAN and MODE hold the control mode's row (R92). -/
theorem encodeFrame_holds_row {c : Cfg} (h : c.WF) {m last : Mode} {r : ModeRow}
    (hr : modeTable c (controlMode m last) = some r) (t : Int) (shadow : Frame) :
    getField (encodeFrame c m t shadow last) c.fan = r.fan
    ∧ getField (encodeFrame c m t shadow last) c.autofan = r.autofan
    ∧ getField (encodeFrame c m t shadow last) c.mode = r.mode := by
  rw [encodeFrame_eq_finishFrame, getField_finishFrame h (clear_fan h), getField_finishFrame h (clear_autofan h),
    getField_finishFrame h (clear_mode h)]
  exact getField_writeModeRow h hr _

/-- A counter of at least one bit does not stand still. -/
theorem succ_mod_two_pow_ne {x w : Nat} (hw : 1 ≤ w) : (x + 1) % 2 ^ w ≠ x := by
  intro h
  have hlt : x < 2 ^ w := h ▸ Nat.mod_lt _ (Nat.two_pow_pos w)
  have htwo : 2 ≤ 2 ^ w := Nat.le_self_pow (by omega) 2
  rcases Nat.lt_or_ge (x + 1) (2 ^ w) with hfit | hwrap
  · rw [Nat.mod_eq_of_lt hfit] at h
    omega
  · rw [show x + 1 = 2 ^ w by omega, Nat.mod_self] at h
    omega

theorem controlMode_off (last : Mode) : controlMode .off last = last := by
  cases last <;> rfl

theorem controlMode_auto_of_ne_off {last : Mode} (h : last ≠ .off) : controlMode .auto last = .auto := by
  simp [controlMode, h]

theorem clamp_clamp (t : Int) : clamp (clamp t) = clamp t :=
  clamp_of_mem (clamp_bounds t).1 (clamp_bounds t).2

/-- The temperature value reads the target through Clamp alone (R93). -/
theorem tempValue_clamp (c : Cfg) (cm : Mode) (t : Int) : tempValue c cm (clamp t) = tempValue c cm t := by
  cases cm <;> simp only [tempValue, offsetTemp_eq, clamp_clamp]

theorem encodeFrame_clamp (c : Cfg) (m : Mode) (t : Int) (shadow : Frame) (last : Mode) :
    encodeFrame c m (clamp t) shadow last = encodeFrame c m t shadow last := by
  rw [encodeFrame_eq_finishFrame, tempValue_clamp, encodeFrame_eq_finishFrame]

theorem exec_encInstr_clamp (m : Mode) (t : Int) (s : State) :
    exec (encInstr m t) s = exec (encInstr m (clamp t)) s := by
  rw [exec_encInstr, exec_encInstr, enc_eq_afterEnc, enc_eq_afterEnc, encodeFrame_clamp]

/-- ENC.OFF re-sends LASTMODE's row, if it has one, with POWER 0 (R91, R92, R96). -/
theorem exec_encOff (t : Int) (s : State) :
    exec (.encOff t) s = .next (afterEnc
      (finishFrame Config.cfg (tempValue Config.cfg s.lastMode t)
        (writeModeRow Config.cfg (modeTable Config.cfg s.lastMode) (setField s.shadow Config.cfg.power 0)))
      .off s) := by
  have hexec := exec_encInstr .off t s
  rw [enc_eq_afterEnc, encodeFrame_eq_finishFrame, controlMode_off] at hexec
  exact hexec

/-- ENC.AUTO, by its control mode (R91, R92, R98). -/
theorem exec_encAuto (t : Int) (s : State) :
    exec (.encAuto t) s = .next (afterEnc
      (finishFrame Config.cfg (tempValue Config.cfg (controlMode .auto s.lastMode) t)
        (writeModeRow Config.cfg (modeTable Config.cfg (controlMode .auto s.lastMode))
          (setField s.shadow Config.cfg.power 1)))
      (controlMode .auto s.lastMode) s) := by
  have hexec := exec_encInstr .auto t s
  rw [enc_eq_afterEnc, encodeFrame_eq_finishFrame] at hexec
  exact hexec

theorem offsetTemp_bounds (t : Int) :
    (offsetTemp t : Int) = clamp t - 17 + 1 ∧ 1 ≤ offsetTemp t ∧ offsetTemp t ≤ 14 := by
  obtain ⟨hlow, hhigh⟩ := clamp_bounds t
  rw [offsetTemp_eq]
  omega

end Sys2Proof.Machine
end

section
/-! The obligations on what an ENC leaves in each field (spec/40_framecodec_encode.md, spec/41_framecodec_decode.md). -/

namespace Sys2Proof.Machine

/-- Settles O19: field by field, the lemmas on `encodeFrame`. -/
theorem encFieldsHoldWhatTheTablesSay : Obligations.EncFieldsHoldWhatTheTablesSay := by
  intro c hwf m t shadow last
  exact ⟨getField_encodeFrame_power hwf m t shadow last, getField_encodeFrame_temp hwf m t shadow last,
    getField_encodeFrame_count hwf m t shadow last, getField_encodeFrame_cks c m t shadow last,
    fun hoff => encodeFrame_off_keeps_row hwf hoff t shadow, fun _ hr => encodeFrame_holds_row hwf hr t shadow⟩

/-- Settles O20: an ENC is `enc`, which writes SHADOW, LASTMODE and the result ports. -/
theorem encLeavesUnnamedBitsAndInputsAlone : Obligations.EncLeavesUnnamedBitsAndInputsAlone := by
  intro i s u hi hu
  obtain ⟨m, t, rfl⟩ := eq_encInstr_of_isEnc hi
  rw [exec_encInstr] at hu
  cases hu
  refine ⟨rfl, rfl, rfl, rfl, fun j hj => getLsbD_encodeFrame_unnamed Config.cfg_wf m t _ _ hj,
    fun m' hm' hoff => ?_⟩
  rw [intentOf_encInstr] at hm'
  cases hm'
  exact encodeFrame_off_keeps_row Config.cfg_wf hoff t s.shadow

/-- Settles O58: DEC reads back, field by field, what O19 says an ENC wrote. -/
theorem decReturnsTheFieldsThatEncWrote : Obligations.DecReturnsTheFieldsThatEncWrote := by
  intro i m t s hm ht
  obtain rfl := eq_encInstr_of_intentOf hm ht
  have hwf := Config.cfg_wf
  have hvalid := checksumValid_encodeFrame Config.cfg m t s.shadow s.lastMode
  refine ⟨enc Config.cfg m t s, _, encodeFrame Config.cfg m t s.shadow s.lastMode, _, exec_encInstr m t s, rfl,
    exec_dec _, congrArg some (if_pos hvalid), congrArg some hvalid, rfl, ?_⟩
  exact ⟨getField_encodeFrame_power hwf m t _ _, getField_encodeFrame_temp hwf m t _ _,
    getField_encodeFrame_count hwf m t _ _, getField_encodeFrame_cks _ m t _ _,
    fun hoff => encodeFrame_off_keeps_row hwf hoff t _, fun _ hr => encodeFrame_holds_row hwf hr t _⟩

/-- Settles O24: `exec_encInstr_clamp` for each of the five modes. -/
theorem clampedTargetGivesTheSameResult : Obligations.ClampedTargetGivesTheSameResult :=
  fun t s => ⟨exec_encInstr_clamp .off t s, exec_encInstr_clamp .cool t s, exec_encInstr_clamp .auto t s,
    exec_encInstr_clamp .dehumidify t s, exec_encInstr_clamp .clean t s⟩

/-- Settles O25: after Cool the control mode of an Off intent is Cool, so both frames hold the Cool row. -/
theorem offAfterCoolKeepsTheCoolFields : Obligations.OffAfterCoolKeepsTheCoolFields := by
  intro t s
  have hwf := Config.cfg_wf
  have hcool : controlMode .cool s.lastMode = .cool := controlMode_eq_self _ (by decide) (by decide)
  obtain ⟨u, hu, hshadow, hlast⟩ : ∃ u, exec (.encCool t) s = .next u
      ∧ u.shadow = encodeFrame Config.cfg .cool t s.shadow s.lastMode ∧ u.lastMode = .cool :=
    ⟨_, exec_encInstr .cool t s, rfl, nextLastMode_eq_self s.lastMode (m := .cool) (by decide) (by decide)⟩
  have hoff : controlMode .off u.lastMode = .cool := (controlMode_off _).trans hlast
  obtain ⟨r, hr⟩ : ∃ r, modeTable Config.cfg .cool = some r := ⟨_, rfl⟩
  obtain ⟨fan, autofan, mode⟩ := encodeFrame_holds_row hwf (hcool.symm ▸ hr) t s.shadow
  obtain ⟨fan', autofan', mode'⟩ := encodeFrame_holds_row hwf (hoff.symm ▸ hr) t u.shadow
  have htemp := getField_encodeFrame_temp hwf .cool t s.shadow s.lastMode
  have htemp' := getField_encodeFrame_temp hwf .off t u.shadow u.lastMode
  have hpower := getField_encodeFrame_power hwf .cool t s.shadow s.lastMode
  rw [hcool] at htemp
  rw [hoff] at htemp'
  rw [← hshadow] at fan autofan mode htemp hpower
  exact ⟨u, enc Config.cfg .off t u, hu, exec_encInstr .off t u, fan'.trans fan.symm, autofan'.trans autofan.symm,
    mode'.trans mode.symm, htemp'.trans htemp.symm, hpower, getField_encodeFrame_power hwf .off t _ _⟩

/-- Settles O26: COUNT differs between the two frames (WF3 of R7). -/
theorem theSameEncTwiceGivesDifferentFrames : Obligations.TheSameEncTwiceGivesDifferentFrames := by
  intro i s u v hi _ hv hsame
  obtain ⟨m, t, rfl⟩ := eq_encInstr_of_isEnc hi
  rw [exec_encInstr] at hv
  cases hv
  have hcount := getField_encodeFrame_count Config.cfg_wf m t u.shadow u.lastMode
  rw [← enc_shadow, hsame] at hcount
  have hwidth : 1 ≤ Config.cfg.wCount := by
    have := Config.cfg_wf.wf3.1
    omega
  exact succ_mod_two_pow_ne hwidth hcount.symm

/-- Settles O27: `enc` writes what it computes from the two registers. -/
theorem encDependsOnTheRegistersAlone : Obligations.EncDependsOnTheRegistersAlone := by
  intro i s s' u u' hi hshadow hlast hu hu'
  obtain ⟨m, t, rfl⟩ := eq_encInstr_of_isEnc hi
  rw [exec_encInstr] at hu hu'
  cases hu
  cases hu'
  simp only [enc_shadow, enc_lastMode, enc_ports, hshadow, hlast, and_self]

/-- Settles O18: the five rows of the table, the row of Auto by LASTMODE. -/
theorem controlModeFollowsItsTable : Obligations.ControlModeFollowsItsTable :=
  ⟨controlMode_off, fun last => controlMode_eq_self last (by decide) (by decide), rfl,
    fun _ => controlMode_auto_of_ne_off, fun last => controlMode_eq_self last (by decide) (by decide),
    fun last => controlMode_eq_self last (by decide) (by decide)⟩

/-- Settles O13: LASTMODE is the control mode, and each mode but Off has its row. -/
theorem encOffResendsTheLastModeWithPowerClear : Obligations.EncOffResendsTheLastModeWithPowerClear := by
  refine ⟨fun t s => ?_, by decide⟩
  dsimp only
  rw [exec_encOff, ← offsetTemp_eq]
  cases s.lastMode <;> rfl

/-- Settles O15: the control mode is Auto, or Cool where LASTMODE is Off, and then ENC.COOL does the same. -/
theorem encAutoDegradesToCoolAfterOff : Obligations.EncAutoDegradesToCoolAfterOff := by
  refine ⟨fun t s => ⟨fun hlast => ?_, fun hlast => ?_⟩, by decide, by decide⟩
  · rw [exec_encAuto, controlMode_auto_of_ne_off hlast]
    rfl
  · have hcool : exec (.encAuto t) s = exec (.encCool t) s := by
      rw [exec_encAuto, hlast, exec_encCool, ← offsetTemp_eq]
      rfl
    exact ⟨hcool.trans (exec_encCool t s), hcool⟩

/-- Settles O36: the bounds of Clamp, shifted by 16. -/
theorem offsetTemperatureWrapsInThreeBits : Obligations.OffsetTemperatureWrapsInThreeBits := by
  intro t
  obtain ⟨heq, hlow, hhigh⟩ := offsetTemp_bounds t
  refine ⟨heq, hlow, hhigh, fun w hw => ?_, fun h24 h30 => ?_, by decide⟩
  · have hpow : 2 ^ 4 ≤ 2 ^ w := Nat.pow_le_pow_right (by decide) hw
    exact Nat.mod_eq_of_lt (by omega)
  · rw [clamp_of_mem (by omega) h30] at heq
    omega

end Sys2Proof.Machine
end

section
/-! SUPPORT. One flipped bit and the checksum, byte by byte (spec/41_framecodec_decode.md rule R123). -/

namespace Sys2Proof.Machine

/-- Writing back what was read changes no bit. -/
theorem setField_getField (f : Frame) (F : Field) (h : F.shift + F.width ≤ 48) : setField f F (getField f F) = f := by
  apply BitVec.eq_of_getLsbD_eq
  intro i _
  by_cases hi : F.Covers i
  · obtain ⟨hlow, hhigh⟩ := hi
    rw [getLsbD_setField_inside f F _ i h ⟨hlow, hhigh⟩, testBit_getField, decide_eq_true (by omega), Bool.true_and,
      Nat.add_sub_cancel' hlow]
  · exact getLsbD_setField_outside f F _ i h hi

/-- A frame is checksum-valid when byte 0 is the wrapping sum of the other five (R15, R62). -/
theorem checksumValid_iff_byte (f : Frame) :
    checksumValid f = true ↔ byte f 1 + byte f 2 + byte f 3 + byte f 4 + byte f 5 = byte f 0 := by
  have hbyte : (byte f 0).toNat = f.toNat % 256 := by
    rw [byte_toNat, Nat.mul_zero, Nat.pow_zero, Nat.div_one]
  rw [checksumValid_eq_decide, decide_eq_true_eq, checksum_eq_wrapping_sum, ← hbyte, BitVec.toNat_inj]

/-- Two checksum-valid frames do not differ in one byte alone: the other five fix it. -/
theorem byte_eq_of_checksumValid {f g : Frame} (hf : checksumValid f = true) (hg : checksumValid g = true) {k : Nat}
    (hk : k < 6) (h : ∀ j, j ≠ k → byte g j = byte f j) : byte g k = byte f k := by
  rw [checksumValid_iff_byte] at hf hg
  interval_cases k
  all_goals simp (disch := decide) only [h] at hg
  all_goals bv_omega

theorem getLsbD_flip (f : Frame) (i : Nat) {j : Nat} (hj : j < 48) :
    (f ^^^ (1#48 <<< i)).getLsbD j = (f.getLsbD j ^^ decide (j = i)) := by
  have hone : (1#48 <<< i).getLsbD j = decide (j = i) := by
    rw [BitVec.getLsbD_shiftLeft, BitVec.getLsbD_one, Bool.eq_iff_iff]
    simp only [Bool.and_eq_true, Bool.not_eq_true', decide_eq_true_eq, decide_eq_false_iff_not]
    omega
  rw [BitVec.getLsbD_xor, hone]

/-- A flip is seen in the byte of its bit and in no other. -/
theorem byte_flip_of_ne (f : Frame) {i j : Nat} (h : j ≠ i / 8) : byte (f ^^^ (1#48 <<< i)) j = byte f j := by
  apply BitVec.eq_of_getLsbD_eq
  intro k hk
  rw [byte, byte, BitVec.getLsbD_extractLsb', BitVec.getLsbD_extractLsb']
  by_cases hin : 8 * j + k < 48
  · have hne : 8 * j + k ≠ i := by omega
    rw [getLsbD_flip f i hin, decide_eq_false hne, Bool.xor_false]
  · rw [BitVec.getLsbD_of_ge _ _ (by omega), BitVec.getLsbD_of_ge _ _ (by omega)]

theorem byte_flip_self (f : Frame) {i : Nat} (h : i < 48) : byte (f ^^^ (1#48 <<< i)) (i / 8) ≠ byte f (i / 8) := by
  intro hbyte
  have hbit := congrArg (BitVec.getLsbD · (i % 8)) hbyte
  simp only [byte, BitVec.getLsbD_extractLsb', Nat.div_add_mod, getLsbD_flip f i h] at hbit
  have hlt : i % 8 < 8 := Nat.mod_lt _ (by decide)
  simp [hlt] at hbit

end Sys2Proof.Machine
end

section
/-! SUPPORT. The durations of a pulse sequence, added up (spec/42_pulse_tx.md rules R133 and R134). -/

namespace Sys2Proof.Machine

theorem flat_append (ps qs : List Pair) : flat (ps ++ qs) = flat ps ++ flat qs := by
  induction ps with
  | nil => rfl
  | cons p ps ih => simp only [List.cons_append, flat, ih]

/-- The number of 1 bits in a list of bits. -/
def onesIn (bs : List Bool) : Nat := (bs.map Bool.toNat).sum

theorem onesIn_cons (b : Bool) (bs : List Bool) : onesIn (b :: bs) = b.toNat + onesIn bs := by
  simp only [onesIn, List.map_cons, List.sum_cons]

theorem onesIn_le_length (bs : List Bool) : onesIn bs ≤ bs.length := by
  induction bs with
  | nil => exact Nat.le_refl 0
  | cons b bs ih =>
    have hb := b.toNat_le
    rw [onesIn_cons, List.length_cons]
    omega

/-- Each slot lasts one mark, and a one-space or a zero-space by its bit (R131). -/
theorem sum_flat_slots (c : Cfg) (bs : List Bool) :
    (flat (bs.map (slotPair c))).sum
      = bs.length * c.tBitMark + onesIn bs * c.tOneSpace + (bs.length - onesIn bs) * c.tZeroSpace := by
  induction bs with
  | nil => simp [flat, onesIn]
  | cons b bs ih =>
    have hle := onesIn_le_length bs
    rw [List.map_cons, flat, List.sum_cons, List.sum_cons, ih, onesIn_cons, List.length_cons]
    cases b with
    | true =>
      have hrest : bs.length + 1 - (1 + onesIn bs) = bs.length - onesIn bs := by omega
      simp only [slotPair, if_true, Bool.toNat_true, hrest]
      ring
    | false =>
      have hrest : bs.length + 1 - (0 + onesIn bs) = bs.length - onesIn bs + 1 := by omega
      simp only [slotPair, Bool.false_eq_true, if_false, Bool.toNat_false, hrest]
      ring

/-- The bits of a frame in the order of the slots (R43). -/
def slotBits (f : Frame) : List Bool := (List.range 48).map fun k => f.getLsbD (47 - k)

/-- The slots run through the bits backwards. -/
theorem onesIn_slotBits (f : Frame) : onesIn (slotBits f) = onesCount f := by
  have hrev : (List.range 48).map (fun k => 47 - k) = (List.range 48).reverse := by decide
  have hbits : slotBits f = ((List.range 48).map f.getLsbD).reverse := by
    rw [← List.map_reverse, ← hrev, List.map_map]
    rfl
  rw [onesIn, hbits, List.map_reverse, List.sum_reverse, List.map_map]
  rfl

theorem toPulses_eq (c : Cfg) (f : Frame) :
    toPulses c f = headerPair c :: ((slotBits f).map (slotPair c) ++ [footerPair c]) := by
  rw [toPulses, slotBits, List.map_map]
  rfl

/-- `Len(f)` is the sum of the durations (R133). -/
theorem sum_flat_toPulses (c : Cfg) (f : Frame) : (flat (toPulses c f)).sum = sequenceLength c f := by
  have hlen : (slotBits f).length = 48 := by rw [slotBits, List.length_map, List.length_range]
  have hfooter : (flat [footerPair c]).sum = c.tFtrMark + c.tFtrSpace := rfl
  rw [toPulses_eq, flat, flat_append, List.sum_cons, List.sum_cons, List.sum_append, sum_flat_slots, hfooter, hlen,
    onesIn_slotBits, sequenceLength, headerPair]
  ring

theorem map_length_onAirOnce (ps : List Pair) : (onAirOnce ps).map Stretch.length = flat ps := by
  induction ps with
  | nil => rfl
  | cons p ps ih => simp only [onAirOnce, flat, List.map_cons, ih]

theorem onAir_three (c : Cfg) (ps : List Pair) (gap : Nat) :
    onAir c ps gap 3 = onAirOnce ps ++ sinkGap c gap ++ (onAirOnce ps ++ sinkGap c gap ++ onAirOnce ps) := rfl

theorem sum_length_sinkGap (c : Cfg) (gap : Nat) :
    ((sinkGap c gap).map Stretch.length).sum = if c.sinkAddsGap then gap else 0 := by
  rw [sinkGap]
  split <;> rfl

end Sys2Proof.Machine
end

section
/-! The obligations on the frame primitives and on the durations (spec/41_framecodec_decode.md, spec/42_pulse_tx.md). -/

namespace Sys2Proof.Machine

/-- Settles O33: the two laws of `setField` and `getField`. -/
theorem setFieldThenGetFieldRoundTrips : Obligations.SetFieldThenGetFieldRoundTrips :=
  fun f F v h => ⟨setField_getField f F h, getField_setField_self f F v h⟩

/-- Settles O40: the flip changes one byte, which the other five fix. -/
theorem anySingleBitFlipIsDetected : Obligations.AnySingleBitFlipIsDetected := by
  intro f i hi hf
  rw [Bool.eq_false_iff]
  intro hflip
  exact byte_flip_self f hi (byte_eq_of_checksumValid hf hflip (by omega) fun j hj => byte_flip_of_ne f hj)

/-- Settles O42: header, slots and footer, and the slots by an induction on their bits. -/
theorem sequenceDurationsAddUpToLen : Obligations.SequenceDurationsAddUpToLen := sum_flat_toPulses

/-- Settles O43: three replays and two gaps, each gap empty unless the sink adds one. -/
theorem threeReplaysOnTheAir : Obligations.ThreeReplaysOnTheAir := by
  intro c f
  dsimp only
  refine ⟨fun hno => ?_, fun hadds => ?_, ?_⟩
  · simp only [onAir_three, sinkGap, hno, Bool.false_eq_true, if_false, List.append_nil, List.append_assoc]
  · simp only [onAir_three, sinkGap, hadds, if_true, List.append_assoc]
  · simp only [onAir_three, List.map_append, List.sum_append, map_length_onAirOnce, sum_flat_toPulses,
      sum_length_sinkGap]
    split <;> omega

end Sys2Proof.Machine
end

section
/-! SUPPORT. XMIT and RECV in closed form, the two requests of a host that issues XMIT's commands, and runs request by
request (spec/44_composite.md rules R155 to R157, spec/30_encoding.md rules R77 and R78, spec/70_reset_and_hazards.md
rule R189). -/

namespace Sys2Proof.Machine

theorem execEnc_eq (m : Mode) (t : Int) (s : State) : execEnc m t s = .next (enc Config.cfg m t s) := by
  cases m <;> rfl

/-- XMIT hands ENC's frame to TXP (R155). -/
theorem xmit_eq (m : Mode) (t : Int) (s : State) :
    xmit m t s
      = .next (drive (txpPorts Config.cfg (encodeFrame Config.cfg m t s.shadow s.lastMode))
          { enc Config.cfg m t s with fin := encodeFrame Config.cfg m t s.shadow s.lastMode }) := by
  rw [xmit, execEnc_eq]
  rfl

/-- RECV that matches hands RXP's frame to DEC (R156). -/
theorem recv_of_ok {d : List Nat} {f : Frame} (h : fromPulses Config.cfg d = .ok f) (s : State) :
    recv d s = .next { s with
      pin := d, fin := f, ports := { decPorts Config.cfg f with matched := some true } } := by
  have hrxp : execRxp { s with pin := d } = .next { s with
      pin := d, ports := { outcome := some .ok, info := some 0#7, fout := some f, matched := some true } } :=
    (exec_rxp _).trans (by rw [rxpPorts_of_ok h])
  rw [recv, hrxp]
  rfl

/-- RECV that does not match ends with RXP's outcome (R156). -/
theorem recv_of_error {d : List Nat} {e : Failure} (h : fromPulses Config.cfg d = .error e) (s : State) :
    recv d s = .next { s with pin := d, ports := raiseNoMatch e.why e.index } := by
  have hrxp : execRxp { s with pin := d } = .next { s with pin := d, ports := raiseNoMatch e.why e.index } :=
    (exec_rxp _).trans (by rw [rxpPorts_of_error h])
  rw [recv, hrxp]
  rfl

/-- The step on an ENC word alone among the requests (R48, R77). -/
theorem step_encWord (m : Mode) (t : Int) (f : Frame) (d : List Nat) (s : State) :
    step { s with pending := [.command (encWord m t) f d] }
      = .next (enc Config.cfg m (tempOperand (encWord m t))
          (present (encWord m t) f d [] { s with pending := [.command (encWord m t) f d] })) := by
  rw [step_of_decode_ok rfl (decode_encWord_tempOperand m t), exec_encInstr]

/-- A run takes its first request as the only one pending, and then the rest (R48). -/
theorem run_cons {r : Request} {s u : State} (h : step { s with pending := [r] } = .next u) (rs : List Request) :
    run (r :: rs) s = ((run rs u).1, u.ports :: (run rs u).2) := by
  rw [run, h]

theorem run_length (a : List Request) (s : State) : (run a s).2.length = a.length := by
  induction a generalizing s with
  | nil => rfl
  | cons r a ih =>
    obtain ⟨u, hu⟩ := state_goes { s with pending := [r] }
    rw [run_cons hu, List.length_cons, List.length_cons, ih]

theorem run_append (a b : List Request) (s : State) :
    run (a ++ b) s = ((run b (run a s).1).1, (run a s).2 ++ (run b (run a s).1).2) := by
  induction a generalizing s with
  | nil => rfl
  | cons r a ih =>
    obtain ⟨u, hu⟩ := state_goes { s with pending := [r] }
    rw [List.cons_append, run_cons hu, run_cons hu, ih, List.cons_append]

/-- The requests of a list of ENC commands, given by their intents. -/
def encRequests (l : List (Mode × Int)) : List Request :=
  l.map fun p => .command (encWord p.1 p.2) 0#48 []

/-- A run of ENC commands performs the first of them, which steps COUNT and returns its frame, and then the rest. -/
theorem run_encRequests_cons (p : Mode × Int) (l : List (Mode × Int)) (s : State) :
    ∃ u, getField u.shadow Config.cfg.count = (getField s.shadow Config.cfg.count + 1) % 2 ^ Config.cfg.wCount
      ∧ run (encRequests (p :: l)) s
          = ((run (encRequests l) u).1, encPorts u.shadow :: (run (encRequests l) u).2) :=
  ⟨_, getField_encodeFrame_count Config.cfg_wf _ _ _ _, run_cons (step_encWord p.1 p.2 0#48 [] s) (encRequests l)⟩

/-- COUNT after a run of ENC commands (R102 b). -/
theorem count_run_encRequests (l : List (Mode × Int)) (s : State) :
    getField (run (encRequests l) s).1.shadow Config.cfg.count
      = (getField s.shadow Config.cfg.count + l.length) % 2 ^ Config.cfg.wCount := by
  induction l generalizing s with
  | nil => exact (Nat.mod_eq_of_lt (getField_lt s.shadow Config.cfg.count)).symm
  | cons p l ih =>
    obtain ⟨u, hcount, hrun⟩ := run_encRequests_cons p l s
    rw [hrun, ih, hcount, Nat.mod_add_mod, List.length_cons, Nat.add_assoc, Nat.add_comm 1]

/-- The `k`-th result of a run of ENC commands is a frame whose COUNT is `k + 1` on from the start (R102 b). -/
theorem result_run_encRequests {l : List (Mode × Int)} {k : Nat} (hk : k < l.length) (s : State) :
    ∃ f, (run (encRequests l) s).2[k]? = some (encPorts f)
      ∧ getField f Config.cfg.count = (getField s.shadow Config.cfg.count + k + 1) % 2 ^ Config.cfg.wCount := by
  induction l generalizing s k with
  | nil => exact absurd hk (Nat.not_lt_zero k)
  | cons p l ih =>
    obtain ⟨u, hcount, hrun⟩ := run_encRequests_cons p l s
    rw [hrun]
    cases k with
    | zero => exact ⟨u.shadow, rfl, hcount⟩
    | succ k =>
      obtain ⟨f, hget, hf⟩ := ih (Nat.lt_of_succ_lt_succ hk) u
      refine ⟨f, hget, hf.trans ?_⟩
      rw [hcount, Nat.add_assoc, Nat.mod_add_mod, Nat.add_assoc, Nat.add_assoc, Nat.add_comm 1]

end Sys2Proof.Machine
end

section
/-! The obligations on the composites, on program lines and on runs (spec/44_composite.md, spec/30_encoding.md,
spec/70_reset_and_hazards.md). -/

namespace Sys2Proof.Machine

/-- Settles O48: `xmit_eq`, field by field. -/
theorem xmitIsEncThenTxpOfItsFrame : Obligations.XmitIsEncThenTxpOfItsFrame := xmit_eq

/-- Settles O50: RXP matches, and DEC follows, or RXP's outcome stands. -/
theorem recvIsRxpThenDecOnAMatch : Obligations.RecvIsRxpThenDecOnAMatch :=
  fun _ s => ⟨fun _ hf => recv_of_ok hf s, fun _ he => recv_of_error he s⟩

/-- Settles O49: the two words decode to ENC and TXP, and `fin` of the second request is the frame of the first. -/
theorem xmitIsTheTwoCommandsInTurn : Obligations.XmitIsTheTwoCommandsInTurn := by
  intro m t s f l l' ht
  have henc := step_encWord m t f l s
  rw [tempOperand_encWord m ht] at henc
  exact ⟨_, _, _, _, henc, rfl, step_of_decode_ok (i := .txp) rfl rfl, xmit_eq m t s, rfl, rfl, rfl⟩

/-- Settles O51: RXP recovers the frame that TXP was given, and DEC finds the checksum that ENC stamped. -/
theorem recvOfXmitReturnsTheNewShadow : Obligations.RecvOfXmitReturnsTheNewShadow := by
  intro m t s
  have hrecovers := fromPulses_flat_toPulses Config.cfg_wf (encodeFrame Config.cfg m t s.shadow s.lastMode)
  have hvalid := checksumValid_encodeFrame Config.cfg m t s.shadow s.lastMode
  exact ⟨_, _, _, xmit_eq m t s, rfl, hrecovers, recv_of_ok hrecovers _, rfl, congrArg some hvalid,
    congrArg some (if_pos hvalid), rfl, rfl, rfl⟩

/-- Settles O56: each line's request is performed by the next step. -/
theorem assembledLinePerformsItsCommand : Obligations.AssembledLinePerformsItsCommand := by
  intro s
  refine ⟨fun m t ht => ?_, fun f => ?_, fun f => ?_, fun d => ?_, ?_⟩
  · have henc := step_encWord m t 0#48 [] s
    rw [tempOperand_encWord m ht] at henc
    exact ⟨_, henc, rfl, rfl, rfl⟩
  · exact ⟨_, step_of_decode_ok (i := .dec) rfl rfl, rfl, rfl, rfl⟩
  · exact ⟨_, step_of_decode_ok (i := .txp) rfl rfl, rfl, rfl, rfl⟩
  · exact ⟨_, step_of_decode_ok (i := .rxp) rfl rfl, rfl, rfl, rfl⟩
  · exact ⟨_, step_reset rfl, rfl, rfl, rfl⟩

/-- Settles O57: every step goes on, so a run ends with its last request. -/
theorem runsAreInOrderAndComplete : Obligations.RunsAreInOrderAndComplete :=
  fun a b s => ⟨run_length a s, run_append a b s⟩

/-- Settles O23: each ENC steps COUNT once, by induction over the list. -/
theorem countTakesConsecutiveValues : Obligations.CountTakesConsecutiveValues := by
  intro l s
  have hlength : (run (encRequests l) s).2.length = l.length := by rw [run_length, encRequests, List.length_map]
  exact ⟨count_run_encRequests l s, hlength, fun _ hk => result_run_encRequests hk s⟩

end Sys2Proof.Machine
end
